-- ==== Sys2Proof/Word.lean ====
section
/-! DEFINITION. The word types of the Packet codec block (R7, R9): what the spec treats as bits. -/

namespace Sys2Proof

/-- One byte of a frame or of a buffer (R10). -/
abbrev Byte := BitVec 8

/-- A host address: 16 bits, byte-addressed (R7, R60). -/
abbrev Addr := BitVec 16

/-- A 16-bit length field or checksum (R7). -/
abbrev Half := BitVec 16

/-- Host data and the command word: 32 bits (R7). -/
abbrev Word := BitVec 32

/-- An RTT register: 64 bits, holding the encoding of a binary64 value (R7, R11). -/
abbrev Dword := BitVec 64

end Sys2Proof
end

