-- ==== Sys2Proof/Syntax.lean ====
section
/-! DEFINITION. Syntax: the 16 commands (R86), the host's transactions and the reset input (R100, R101, R220),
and the assembler's lines and pseudo-instructions (R89, R90). -/

namespace Sys2Proof

/-- The commands of PCB-v1, one constructor per row of R86. The one operand is the immediate sequence
bit B (R85). -/
inductive Instr where
  | nop
  | enc
  | enci (b : Bool)
  | verify
  | ackenc
  | ackenci (b : Bool)
  | ackchk
  | ackchki (b : Bool)
  | txflip
  | rxflip
  | seqrst
  | rttrst
  | rttupd
  | retxmark
  | txcommit
  | rxcommit
deriving DecidableEq, Repr

/-- The registers of the host address map (R61), the halves of the 64-bit ones apart (R42). -/
inductive Reg where
  | cmd | status | txlen | rxlen | ackin | ackout | seq | rxhdr | csum | maxpkt
  | sampleLo | sampleHi | estLo | estHi | devLo | devHi | tmoLo | tmoHi | initTmoLo | initTmoHi
deriving DecidableEq, Repr

/-- What the outside world does to the block, one at a time (R60, R72, R220): a 32-bit read, a 32-bit
write, or a change of the platform's reset input. There is nothing else (R205, R211). -/
inductive HostEvent where
  /-- RD (R100). -/
  | rd (a : Addr)
  /-- WR (R101). -/
  | wr (a : Addr) (d : Word)
  /-- The reset input is asserted (`true`) or released (`false`) (R220). -/
  | resetInput (asserted : Bool)
deriving DecidableEq, Repr

/-- The address operand of a program line (R89). -/
inductive AddrOperand where
  | num (a : Addr)
  | reg (r : Reg)
  | txbuf (o : Nat)
  | rxbuf (o : Nat)
deriving DecidableEq, Repr

/-- The pseudo-instructions (R90). -/
inductive Pseudo where
  | clrerr
  | ldsample (v : Dword)
  | ldinittmo (v : Dword)
  | ldtx (payload : List Byte)
  | ldrx (frame : List Byte)
  | ldack (bytes : List Byte)
deriving DecidableEq, Repr

/-- One line of a program (R89): `WR`, `RD` with the value it may state, a command, or a pseudo-instruction. -/
inductive Line where
  | wr (a : AddrOperand) (v : Word)
  | rd (a : AddrOperand) (states : Option Word)
  | command (i : Instr)
  | pseudo (p : Pseudo)
deriving DecidableEq, Repr

end Sys2Proof
end

