-- ==== Sys2Proof/WellFormed.lean ====
section
/-! DEFINITION. Which terms of the syntax the spec admits. MAX_PACKET is an argument (R5). -/

namespace Sys2Proof

/-- Every command is well-formed: its only operand is one bit (R85), and only ENCI, ACKENCI and ACKCHKI
take it (R89), which their constructors say already. -/
def Instr.wellFormed : Instr → Bool
  | .nop | .enc | .verify | .ackenc | .ackchk => true
  | .txflip | .rxflip | .seqrst | .rttrst | .rttupd | .retxmark | .txcommit | .rxcommit => true
  | .enci _ | .ackenci _ | .ackchki _ => true

/-- `TXBUF+<o>` and `RXBUF+<o>` take a window offset that is a multiple of 4 (R89); a window is 4096 bytes (R61). -/
def AddrOperand.wellFormed : AddrOperand → Bool
  | .num _ | .reg _ => true
  | .txbuf o | .rxbuf o => o % 4 == 0 && decide (o < 4096)

/-- `LDTX` takes a payload of at most MAX_PACKET bytes (R80), `LDRX` a frame of at most MAX_PACKET + 3 bytes
(R28), `LDACK` 0 to 2 bytes (R90). -/
def Pseudo.wellFormed (maxPacket : Nat) : Pseudo → Bool
  | .clrerr | .ldsample _ | .ldinittmo _ => true
  | .ldtx p => decide (p.length ≤ maxPacket)
  | .ldrx f => decide (f.length ≤ maxPacket + 3)
  | .ldack b => decide (b.length ≤ 2)

/-- A line is well-formed when its parts are. -/
def Line.wellFormed (maxPacket : Nat) : Line → Bool
  | .wr a _ | .rd a _ => a.wellFormed
  | .command i => i.wellFormed
  | .pseudo p => p.wellFormed maxPacket

end Sys2Proof
end

