-- ==== Sys2Proof/Decode.lean ====
section
/-! DEFINITION. The decoder of command words, read from the opcode map (R86), and the encoder, written from
the word's fields (R84). -/

namespace Sys2Proof

/-- One row of the opcode map (R86). -/
structure OpcodeRow where
  mnemonic : String
  word : Word
  mask : Word
  /-- The command the row stands for, given the bit B of the word. -/
  command : Bool → Instr

/-- Why a word is illegal (R87). -/
inductive IllegalWord where
  /-- Z1 (bits 31:16) is not 0. -/
  | upperHalfNotZero
  /-- Z0 (bits 7:2) is not 0. -/
  | lowFieldNotZero
  /-- The OPC value is not in the table. -/
  | unknownOpcode
  /-- I = 1 with an OPC that has no immediate form. -/
  | noImmediateForm
  /-- B = 1 with I = 0. -/
  | bitWithoutImmediateForm
deriving DecidableEq, Repr

/-- The opcode map of R86, row for row. -/
def opcodeTable : List OpcodeRow := [
  ⟨"NOP",      0x00000000#32, 0xFFFFFFFF#32, fun _ => .nop⟩,
  ⟨"ENC",      0x00001000#32, 0xFFFFFFFF#32, fun _ => .enc⟩,
  ⟨"ENCI",     0x00001002#32, 0xFFFFFFFE#32, fun b => .enci b⟩,
  ⟨"VERIFY",   0x00001100#32, 0xFFFFFFFF#32, fun _ => .verify⟩,
  ⟨"ACKENC",   0x00001200#32, 0xFFFFFFFF#32, fun _ => .ackenc⟩,
  ⟨"ACKENCI",  0x00001202#32, 0xFFFFFFFE#32, fun b => .ackenci b⟩,
  ⟨"ACKCHK",   0x00001300#32, 0xFFFFFFFF#32, fun _ => .ackchk⟩,
  ⟨"ACKCHKI",  0x00001302#32, 0xFFFFFFFE#32, fun b => .ackchki b⟩,
  ⟨"TXFLIP",   0x00002000#32, 0xFFFFFFFF#32, fun _ => .txflip⟩,
  ⟨"RXFLIP",   0x00002100#32, 0xFFFFFFFF#32, fun _ => .rxflip⟩,
  ⟨"SEQRST",   0x00002200#32, 0xFFFFFFFF#32, fun _ => .seqrst⟩,
  ⟨"RTTRST",   0x00003000#32, 0xFFFFFFFF#32, fun _ => .rttrst⟩,
  ⟨"RTTUPD",   0x00003100#32, 0xFFFFFFFF#32, fun _ => .rttupd⟩,
  ⟨"RETXMARK", 0x00003200#32, 0xFFFFFFFF#32, fun _ => .retxmark⟩,
  ⟨"TXCOMMIT", 0x00004000#32, 0xFFFFFFFF#32, fun _ => .txcommit⟩,
  ⟨"RXCOMMIT", 0x00004100#32, 0xFFFFFFFF#32, fun _ => .rxcommit⟩]

/-- A word matches a row iff `(word & mask) == rowword` (R86). -/
def OpcodeRow.holds (r : OpcodeRow) (w : Word) : Bool := w &&& r.mask == r.word

/-- The bit B of a command word (R84). -/
def immediateBit (w : Word) : Bool := w.getLsbD 0

/-- The OPC values of R86. -/
def knownOpcodes : List Byte :=
  [0x00#8, 0x10#8, 0x11#8, 0x12#8, 0x13#8, 0x20#8, 0x21#8, 0x22#8, 0x30#8, 0x31#8, 0x32#8, 0x40#8, 0x41#8]

/-- The name of the fault in a word that matches no row (R87). -/
def illegalReason (w : Word) : IllegalWord :=
  if w.extractLsb' 16 16 ≠ 0#16 then .upperHalfNotZero
  else if w.extractLsb' 2 6 ≠ 0#6 then .lowFieldNotZero
  else if w.extractLsb' 8 8 ∉ knownOpcodes then .unknownOpcode
  else if w.getLsbD 1 then .noImmediateForm
  else .bitWithoutImmediateForm

/-- The decoder (R86, R102): the row that matches, with B = d[0]; a word that matches none is illegal (R87). -/
def decode (w : Word) : Except IllegalWord Instr :=
  match opcodeTable.find? (fun r => r.holds w) with
  | some r => .ok (r.command (immediateBit w))
  | none => .error (illegalReason w)

/-- OPC of a command (R86). -/
def Instr.opcode : Instr → Byte
  | .nop => 0x00#8
  | .enc | .enci _ => 0x10#8
  | .verify => 0x11#8
  | .ackenc | .ackenci _ => 0x12#8
  | .ackchk | .ackchki _ => 0x13#8
  | .txflip => 0x20#8
  | .rxflip => 0x21#8
  | .seqrst => 0x22#8
  | .rttrst => 0x30#8
  | .rttupd => 0x31#8
  | .retxmark => 0x32#8
  | .txcommit => 0x40#8
  | .rxcommit => 0x41#8

/-- The immediate operand B of an I = 1 form; none for an I = 0 form (R85, R86). -/
def Instr.immediate? : Instr → Option Bool
  | .enci b | .ackenci b | .ackchki b => some b
  | .nop | .enc | .verify | .ackenc | .ackchk => none
  | .txflip | .rxflip | .seqrst | .rttrst | .rttupd | .retxmark | .txcommit | .rxcommit => none

/-- A command's name in R86 and in spec/opcode_table.json. -/
def Instr.mnemonic : Instr → String
  | .nop => "NOP"
  | .enc => "ENC"
  | .enci _ => "ENCI"
  | .verify => "VERIFY"
  | .ackenc => "ACKENC"
  | .ackenci _ => "ACKENCI"
  | .ackchk => "ACKCHK"
  | .ackchki _ => "ACKCHKI"
  | .txflip => "TXFLIP"
  | .rxflip => "RXFLIP"
  | .seqrst => "SEQRST"
  | .rttrst => "RTTRST"
  | .rttupd => "RTTUPD"
  | .retxmark => "RETXMARK"
  | .txcommit => "TXCOMMIT"
  | .rxcommit => "RXCOMMIT"

/-- The command word of R84: Z1 = 0, OPC, Z0 = 0, I, B. -/
def encode (i : Instr) : Word :=
  0#16 ++ i.opcode ++ 0#6 ++ BitVec.ofBool i.immediate?.isSome ++ BitVec.ofBool (i.immediate?.getD false)

/-- The host's question about the opcode table: the command that the decoder reads from the low `nbits` bits of
`w`. A command is one 32-bit word (R84), so bits from 32 up have no place in it. -/
def decodeTableWord (nbits w : Nat) : Option Instr :=
  match decode (BitVec.ofNat 32 (w % 2 ^ min nbits 32)) with
  | .ok i => some i
  | .error _ => none

end Sys2Proof
end

