-- ==== Sys2Proof/Config.lean ====
section
/-! DEFINITION. What an implementation fixes (R5, R6, R8, R13) and the free values (R221, IEEE NaN results).
Every `opaque` constant here has no body: nothing can be proved of its value. -/

namespace Sys2Proof.Config

/-- RX_CORRUPT_ACK (R13): the acknowledgment RXCOMMIT sets for a non-empty frame with FRAME_OK = 0. -/
inductive CorruptAck where
  /-- RECEIVED: ack the frame's own sequence byte. -/
  | received
  /-- LAST_ACCEPTED: ack zext_8(1 - RX_EXP). -/
  | lastAccepted
deriving DecidableEq, Repr, Inhabited

/-- The three build-time parameters of one block (R8). No step changes them (R22).
MAX_PACKET is `payloadCap + 1`: the type `Fin 4093` is the legal range 1..4093 of R5. -/
structure Params where
  /-- MAX_PACKET - 1 (R5). -/
  payloadCap : Fin 4093
  /-- INIT_TIMEOUT_RESET (R6). -/
  initTimeoutReset : Dword
  /-- RX_CORRUPT_ACK (R13). -/
  rxCorruptAck : CorruptAck
deriving DecidableEq, Repr

/-- MAX_PACKET - 1 of the block that `State.reset` describes: open (R5, D5). Log entry 1. -/
opaque payloadCap : Fin 4093

/-- INIT_TIMEOUT_RESET of the block that `State.reset` describes: a parameter (R6, D12). Log entry 1. -/
opaque initTimeoutReset : Dword

/-- RX_CORRUPT_ACK of the block that `State.reset` describes: open (R13, D43). Log entry 1. -/
opaque rxCorruptAck : CorruptAck

/-- The parameters of the block that `State.reset` describes. -/
def params : Params := ⟨payloadCap, initTimeoutReset, rxCorruptAck⟩

/-- The default of INIT_TIMEOUT_RESET: 1.0 (R6). -/
def defaultInitTimeout : Dword := 0x3FF0000000000000#64

/-- What the buffer byte at a host address holds after the n-th reset until it is written (R221):
`bufferByte n a`. A free value: arbitrary, fixed per byte and per reset. DESIGN CHOICE, unsafe: it takes no instance
of the block, so unwritten bytes of two instances (R211) at the same address after the same number of resets read equal,
which the spec does not say. Log entry 2. -/
opaque bufferByte : Nat → Nat → Byte

/-- The sign and the 51 low payload bits of a NaN that a binary64 operation produces from these two
operands; R11 leaves them to IEEE 754-2008, which does not fix them. A free value. Log entry 3. -/
opaque nanBits : Dword → Dword → BitVec 52

end Sys2Proof.Config
end

