-- ==== Sys2Proof/Machine/Binary64.lean ====
section
/-! DEFINITION. IEEE 754-2008 binary64 arithmetic on encodings (R11): exact result, then one rounding to nearest,
ties to even. Subnormals are kept; no exception flag is recorded.

A finite value is counted in units of 2^-1074, the least positive subnormal, so that every one of them is an
integer and sums are exact. -/

namespace Sys2Proof.Machine

/-- Sign bit 63 (R11). -/
def b64Neg (a : Dword) : Bool := a.getLsbD 63

/-- Exponent field, bits 62:52 (R11). -/
def b64Exp (a : Dword) : Nat := (a.extractLsb' 52 11).toNat

/-- Fraction field, bits 51:0 (R11). -/
def b64Frac (a : Dword) : Nat := (a.extractLsb' 0 52).toNat

/-- isfinite (R11): the exponent field is not 0x7FF. -/
def b64IsFinite (a : Dword) : Bool := b64Exp a != 0x7FF

def b64IsNaN (a : Dword) : Bool := b64Exp a == 0x7FF && b64Frac a != 0

def b64IsInf (a : Dword) : Bool := b64Exp a == 0x7FF && b64Frac a == 0

/-- Either zero: bits 62:0 are 0. -/
def b64IsZero (a : Dword) : Bool := a.extractLsb' 0 63 == 0#63

/-- fneg_strict (R11): less than zero, so not -0.0. -/
def fnegStrict (a : Dword) : Bool := b64Neg a && a.extractLsb' 0 63 != 0#63

/-- fabs (R11): the sign bit cleared, exactly. -/
def fabs (a : Dword) : Dword := 0#1 ++ a.extractLsb' 0 63

/-- The value with the other sign. -/
def fneg (a : Dword) : Dword := BitVec.ofBool (!b64Neg a) ++ a.extractLsb' 0 63

/-- The magnitude of a finite value in units of 2^-1074: exponent field 0 is subnormal, bias 1023 (R11). -/
def b64Mag (a : Dword) : Nat :=
  if b64Exp a = 0 then b64Frac a else (2 ^ 52 + b64Frac a) * 2 ^ (b64Exp a - 1)

/-- Bits 62:0 of an infinity. -/
def b64InfBits : Nat := 0x7FF0000000000000

/-- The encoding with this sign and these bits 62:0. -/
def b64Pack (neg : Bool) (bits : Nat) : Dword := BitVec.ofBool neg ++ BitVec.ofNat 63 bits

/-- Bits 62:0 of the binary64 value nearest to `n / 2^k` units of 2^-1074, ties to even (R11), infinity on
overflow (R177). `q` is how many low bits of `n` lie below the result's last place: `k` of them when the result is
subnormal, more when it has more than 53 bits. Adding the rounded significand to `(q - k) * 2^52` gives the
encoding: a significand of 2^52 or more carries its leading bit into the exponent field. -/
def b64Round (n k : Nat) : Nat :=
  let q := k + (n.log2 + 1 - (k + 53))
  let m := n / 2 ^ q
  let r := n % 2 ^ q
  let up := decide (2 ^ q < 2 * r) || (2 * r == 2 ^ q && m % 2 == 1)
  min (m + (if up then 1 else 0) + (q - k) * 2 ^ 52) b64InfBits

/-- A quiet NaN, its sign and payload left free (log entry 3). -/
def b64NaN (a b : Dword) : Dword :=
  (Config.nanBits a b).extractLsb' 51 1 ++ 0x7FF#11 ++ 1#1 ++ (Config.nanBits a b).extractLsb' 0 51

/-- fmul (R11). -/
def fmul (a b : Dword) : Dword :=
  if b64IsNaN a || b64IsNaN b then b64NaN a b
  else if b64IsInf a || b64IsInf b then
    if b64IsZero a || b64IsZero b then b64NaN a b
    else b64Pack (b64Neg a != b64Neg b) b64InfBits
  else b64Pack (b64Neg a != b64Neg b) (b64Round (b64Mag a * b64Mag b) 1074)

/-- fadd (R11). An exact zero sum of opposite signs is +0.0, as IEEE 754-2008 has it when rounding to nearest. -/
def fadd (a b : Dword) : Dword :=
  if b64IsNaN a || b64IsNaN b then b64NaN a b
  else if b64IsInf a then
    if b64IsInf b && (b64Neg a != b64Neg b) then b64NaN a b else a
  else if b64IsInf b then b
  else if b64Neg a = b64Neg b then b64Pack (b64Neg a) (b64Round (b64Mag a + b64Mag b) 0)
  else if b64Mag a = b64Mag b then b64Pack false 0
  else if b64Mag b < b64Mag a then b64Pack (b64Neg a) (b64Round (b64Mag a - b64Mag b) 0)
  else b64Pack (b64Neg b) (b64Round (b64Mag b - b64Mag a) 0)

/-- fsub (R11): the sum with the negated second operand. -/
def fsub (a b : Dword) : Dword := fadd a (fneg b)

/-- The constants of R170 (R171). -/
def c0875 : Dword := 0x3FEC000000000000#64
def c0125 : Dword := 0x3FC0000000000000#64
def c075 : Dword := 0x3FE8000000000000#64
def c025 : Dword := 0x3FD0000000000000#64
def c4 : Dword := 0x4010000000000000#64
def plusZero : Dword := 0x0000000000000000#64

end Sys2Proof.Machine
end

