-- ==== Sys2Proof/Machine/Checksum.lean ====
section
/-! DEFINITION. The checksum function (R120, R121), its streaming form (R130), and the wire byte of a sequence
bit (R122). -/

namespace Sys2Proof.Machine

/-- At most `fuel` turns of the loop of R120. -/
def foldTurns : Nat → Nat → Nat
  | 0, t => t
  | fuel + 1, t => if 0xFFFF < t then foldTurns fuel (t % 0x10000 + t / 0x10000) else t

/-- fold16 (R120). Each turn makes a T above 0xFFFF smaller, so T turns are enough. -/
def fold16 (t : Nat) : Nat := foldTurns t t

/-- The 16-bit words of a byte sequence: the first byte of each pair is the low byte, and an odd last byte is
padded with 0x00 (R121, R65). -/
def pairWords : List Byte → List Nat
  | [] => []
  | [a] => [a.toNat]
  | a :: b :: rest => (a.toNat + 256 * b.toNat) :: pairWords rest

/-- T of R121: the sum of the words, an unbounded integer. -/
def wordSum (f : List Byte) : Nat := (pairWords f).sum

/-- csum16 (R121). -/
def csum16 (f : List Byte) : Half := ~~~ BitVec.ofNat 16 (fold16 (wordSum f))

/-- One addition of the streaming accumulator (R130). -/
def accumulate (acc w : Nat) : Nat := if 0xFFFF < acc + w then acc + w - 0xFFFF else acc + w

/-- zext_8 of a sequence bit: the byte it has on the wire (R122). -/
def seqByte (b : Bool) : Byte := if b then 0x01#8 else 0x00#8

end Sys2Proof.Machine
end

