-- ==== Sys2Proof/Machine/State.lean ====
section
/-! DEFINITION. The state of the block (R22) as plain data, its outcomes, and the state after reset (R220). -/

namespace Sys2Proof.Machine

/-- Why a step stops with a fault. The block never does: an error sets a sticky bit and nothing else, there is no
trap (R200, R207), and every access and every command has an effect. So this type has no constructor, and
`step` can answer no fault. Nobody raises one (safe). -/
inductive Fault where
deriving DecidableEq, Repr

/-- Why an instruction is refused. -/
inductive Refusal where
  /-- Raised by `exec` for a command that has no meaning yet, by its mnemonic. No arm of this model raises it.
  Safe: the machine stops. -/
  | notModelled (mnemonic : String)
deriving DecidableEq, Repr

/-- The bytes of a buffer that have been written since the last reset, by buffer offset (R62). Canonical form
(`Memory.wf`): offsets strictly rising and below BUF_SIZE. An unlisted offset holds no value here: nothing has
written it since reset, and its content is the free value of R221 (`txByte`, `rxByte`). -/
abbrev Memory := List Host.Cell

/-- STATUS: the result flags of R25 (bits 8:0) and the sticky errors of R26 (bits 19:16). The reserved bits hold
nothing (R26). -/
structure Status where
  corrupt : Bool
  short : Bool
  empty : Bool
  seqMatch : Bool
  frameOk : Bool
  accept : Bool
  ackMatch : Bool
  advanced : Bool
  rttUpdated : Bool
  errCmd : Bool
  errLen : Bool
  errAddr : Bool
  errRtt : Bool
deriving DecidableEq, Repr

/-- ACKIN (R29): up to two received ack bytes and their count. -/
structure AckIn where
  byte0 : Byte
  byte1 : Byte
  len : BitVec 2
deriving DecidableEq, Repr

/-- ACKOUT (R30): the ack to transmit and whether there is one. -/
structure AckOut where
  byte : Byte
  valid : Bool
deriving DecidableEq, Repr

/-- SEQ (R31, R32, R33): TX_SEQ, RX_EXP and RETX. -/
structure SeqBits where
  txSeq : Bool
  rxExp : Bool
  retx : Bool
deriving DecidableEq, Repr

/-- RXHDR (R34): the decoded header of the received frame. -/
structure RxHdr where
  rxSeq : Byte
  rxCsum : Half
  seqV : Bool
  hdrV : Bool
deriving DecidableEq, Repr

/-- The state of one block. The fields from `cmdLast` to `rxbuf` are the state that R22 names. `cfg` holds the
block's build-time parameters (R8), which no step changes. The last four fields are the model's own: what the
outside world is about to do, what the port last returned, and the reset input. -/
structure State where
  /-- MAX_PACKET, INIT_TIMEOUT_RESET and RX_CORRUPT_ACK (R5, R6, R13): parameters, not state. -/
  cfg : Config.Params
  /-- CMD.LAST (R24). -/
  cmdLast : Word
  /-- STATUS (R25, R26). -/
  status : Status
  /-- TXLEN.TXPLEN (R27). -/
  txplen : Half
  /-- RXLEN.RXFLEN (R28). -/
  rxflen : Half
  /-- ACKIN (R29). -/
  ackin : AckIn
  /-- ACKOUT (R30). -/
  ackout : AckOut
  /-- SEQ (R31, R32, R33). -/
  seq : SeqBits
  /-- RXHDR (R34). -/
  rxhdr : RxHdr
  /-- CSUM (R35). -/
  csum : Half
  /-- SAMPLE (R37), a binary64 encoding. -/
  sample : Dword
  /-- EST (R38), a binary64 encoding. -/
  est : Dword
  /-- DEV (R39), a binary64 encoding. -/
  dev : Dword
  /-- TMO (R40), a binary64 encoding. -/
  tmo : Dword
  /-- INITTMO (R41), a binary64 encoding. -/
  initTmo : Dword
  /-- TXBUF (R62): what has been written to it since reset. -/
  txbuf : Memory
  /-- RXBUF (R62): what has been written to it since reset. -/
  rxbuf : Memory
  /-- How many resets came before this one: the argument of the free buffer bytes (R221). Log entry 2. -/
  resetCount : Nat
  /-- The level of the platform's reset input: `true` while asserted (R220). Log entry 4. -/
  resetIn : Bool
  /-- What the host and the platform do next, in order (R21, R72). Log entry 5. -/
  pending : List HostEvent
  /-- The data the host port returned in the last transaction, where that was a read (R100). Log entry 6. -/
  rdata : Option Word
deriving DecidableEq, Repr

/-- The reset state of R220, of the block with parameters `cfg`, after `n` earlier resets: every register at its
reset value, the buffers unspecified (R221), the reset input released, nothing pending. -/
def State.resetWith (cfg : Config.Params) (n : Nat) : State where
  cfg := cfg
  cmdLast := 0#32
  status := ⟨false, false, false, false, false, false, false, false, false, false, false, false, false⟩
  txplen := 0#16
  rxflen := 0#16
  ackin := ⟨0#8, 0#8, 0#2⟩
  ackout := ⟨0#8, false⟩
  seq := ⟨false, false, false⟩
  rxhdr := ⟨0#8, 0#16, false, false⟩
  csum := 0#16
  sample := 0#64
  est := 0#64
  dev := 0#64
  tmo := cfg.initTimeoutReset
  initTmo := cfg.initTimeoutReset
  txbuf := []
  rxbuf := []
  resetCount := n
  resetIn := false
  pending := []
  rdata := none

/-- The block right after power-on reset (R220), whatever its parameters are (`Config.params`). -/
def State.reset : State := State.resetWith Config.params 0

end Sys2Proof.Machine
end

