-- ==== Sys2Proof/Machine/Operands.lean ====
section
/-! DEFINITION. What the commands and the host port read: parameters, lengths, buffer bytes, frames, and the
fields of every register as a 32-bit word. -/

namespace Sys2Proof.Machine

/-- MAX_PACKET of a block (R5). -/
def maxPacket (s : State) : Nat := s.cfg.payloadCap.val + 1

/-- BUF_SIZE = MAX_PACKET + 3 (R62). -/
def bufSize (s : State) : Nat := maxPacket s + 3

/-- The host address of buffer offset 0 (R61, R62). -/
def txWindow : Nat := 0x1000
def rxWindow : Nat := 0x2000

/-- The byte that has been written to an offset; none where nothing has been written since reset. -/
def Memory.byteAt : Memory → Nat → Option Byte
  | [], _ => none
  | (o, b) :: rest, x => if o = x then some b else Memory.byteAt rest x

/-- TXBUF[o] (R10): what was last written to it, or its unspecified reset content (R221). -/
def txByte (s : State) (o : Nat) : Byte :=
  (s.txbuf.byteAt o).getD (Config.bufferByte s.resetCount (txWindow + o))

/-- RXBUF[o] (R10): what was last written to it, or its unspecified reset content (R221). -/
def rxByte (s : State) (o : Nat) : Byte :=
  (s.rxbuf.byteAt o).getD (Config.bufferByte s.resetCount (rxWindow + o))

/-- TXBUF[3..3+TXPLEN): the payload ENC reads (R123). -/
def txPayload (s : State) : List Byte := (List.range s.txplen.toNat).map fun j => txByte s (3 + j)

/-- RXBUF[0..RXFLEN): the received frame F (R83, R125). -/
def rxFrame (s : State) : List Byte := (List.range s.rxflen.toNat).map (rxByte s)

/-- TXFLEN: always TXPLEN + 3, a view (R27). -/
def txflen (s : State) : Half := s.txplen + 3#16

/-- RXPLEN: RXFLEN - 3, or 0 for a frame shorter than 3 bytes, a view (R28). -/
def rxplen (s : State) : Half := if 3#16 ≤ s.rxflen then s.rxflen - 3#16 else 0#16

/-- TXBUF[0..TXFLEN): the frame the host transmits (R27, R82). -/
def txFrame (s : State) : List Byte := (List.range (s.txplen.toNat + 3)).map (txByte s)

/-- RXBUF[3..3+RXPLEN): the payload of the received frame, the source's extract_data (R28, R83, R125). -/
def rxPayload (s : State) : List Byte := (List.range (rxplen s).toNat).map fun j => rxByte s (3 + j)

/-- STATUS as the host reads it: R25's flags, R26's sticky bits, reserved bits 0. -/
def statusWord (st : Status) : Word :=
  0#12 ++ BitVec.ofBool st.errRtt ++ BitVec.ofBool st.errAddr ++ BitVec.ofBool st.errLen ++ BitVec.ofBool st.errCmd
    ++ 0#7 ++ BitVec.ofBool st.rttUpdated ++ BitVec.ofBool st.advanced ++ BitVec.ofBool st.ackMatch
    ++ BitVec.ofBool st.accept ++ BitVec.ofBool st.frameOk ++ BitVec.ofBool st.seqMatch
    ++ BitVec.ofBool st.empty ++ BitVec.ofBool st.short ++ BitVec.ofBool st.corrupt

/-- The fields of a register at their bits, reserved bits 0 (R24 to R41, R43). A read changes nothing. -/
def readReg (s : State) : Reg → Word
  | .cmd => s.cmdLast
  | .status => statusWord s.status
  | .txlen => txflen s ++ s.txplen
  | .rxlen => rxplen s ++ s.rxflen
  | .ackin => 0#14 ++ s.ackin.len ++ s.ackin.byte1 ++ s.ackin.byte0
  | .ackout => 0#23 ++ BitVec.ofBool s.ackout.valid ++ s.ackout.byte
  | .seq => 0#29 ++ BitVec.ofBool s.seq.retx ++ BitVec.ofBool s.seq.rxExp ++ BitVec.ofBool s.seq.txSeq
  | .rxhdr => 0#6 ++ BitVec.ofBool s.rxhdr.hdrV ++ BitVec.ofBool s.rxhdr.seqV ++ s.rxhdr.rxCsum ++ s.rxhdr.rxSeq
  | .csum => 0#16 ++ s.csum
  | .maxpkt => BitVec.ofNat 32 (maxPacket s)
  | .sampleLo => s.sample.extractLsb' 0 32
  | .sampleHi => s.sample.extractLsb' 32 32
  | .estLo => s.est.extractLsb' 0 32
  | .estHi => s.est.extractLsb' 32 32
  | .devLo => s.dev.extractLsb' 0 32
  | .devHi => s.dev.extractLsb' 32 32
  | .tmoLo => s.tmo.extractLsb' 0 32
  | .tmoHi => s.tmo.extractLsb' 32 32
  | .initTmoLo => s.initTmo.extractLsb' 0 32
  | .initTmoHi => s.initTmo.extractLsb' 32 32

/-- The address of a register (R61). -/
def regAddr : Reg → Addr
  | .cmd => 0x0000#16
  | .status => 0x0004#16
  | .txlen => 0x0008#16
  | .rxlen => 0x000C#16
  | .ackin => 0x0010#16
  | .ackout => 0x0014#16
  | .seq => 0x0018#16
  | .rxhdr => 0x001C#16
  | .csum => 0x0020#16
  | .maxpkt => 0x0024#16
  | .sampleLo => 0x0028#16
  | .sampleHi => 0x002C#16
  | .estLo => 0x0030#16
  | .estHi => 0x0034#16
  | .devLo => 0x0038#16
  | .devHi => 0x003C#16
  | .tmoLo => 0x0040#16
  | .tmoHi => 0x0044#16
  | .initTmoLo => 0x0048#16
  | .initTmoHi => 0x004C#16

/-- Every register, in the order of their addresses. -/
def allRegs : List Reg :=
  [.cmd, .status, .txlen, .rxlen, .ackin, .ackout, .seq, .rxhdr, .csum, .maxpkt,
   .sampleLo, .sampleHi, .estLo, .estHi, .devLo, .devHi, .tmoLo, .tmoHi, .initTmoLo, .initTmoHi]

/-- The register at an address, if it is a register address (R61). -/
def regAt (a : Addr) : Option Reg := allRegs.find? fun r => regAddr r == a

/-- What a host address names (R61, R64, R67, R69). -/
inductive Target where
  /-- a[1:0] is not 0 (R67). -/
  | misaligned
  /-- An aligned address that names nothing (R69). -/
  | unmapped
  | reg (r : Reg)
  /-- A word of the TXBUF window whose first offset `o` lies below BUF_SIZE: fully or partially mapped (R64). -/
  | txWord (o : Nat)
  /-- A word of the RXBUF window whose first offset `o` lies below BUF_SIZE: fully or partially mapped (R64). -/
  | rxWord (o : Nat)
deriving DecidableEq, Repr

/-- The address decoder of the host port (R100, R101): the alignment check first, then the mapping check (R206). -/
def target (s : State) (a : Addr) : Target :=
  if a.extractLsb' 0 2 ≠ 0#2 then .misaligned
  else match regAt a with
    | some r => .reg r
    | none =>
      if txWindow ≤ a.toNat ∧ a.toNat ≤ txWindow + 0xFFF then
        if a.toNat - txWindow < bufSize s then .txWord (a.toNat - txWindow) else .unmapped
      else if rxWindow ≤ a.toNat ∧ a.toNat ≤ rxWindow + 0xFFF then
        if a.toNat - rxWindow < bufSize s then .rxWord (a.toNat - rxWindow) else .unmapped
      else .unmapped

/-- Lane `i` of a 32-bit word, bits 8i+7 to 8i (R64). -/
def lane (d : Word) (i : Nat) : Byte := d.extractLsb' (8 * i) 8

/-- The host word at offset `o` of a buffer with bytes `byte`: little-endian lanes, a lane at or above BUF_SIZE
reading 0x00 (R64, R100). -/
def bufferWord (byte : Nat → Byte) (size o : Nat) : Word :=
  let at_ (i : Nat) : Byte := if o + i < size then byte (o + i) else 0x00#8
  at_ 3 ++ at_ 2 ++ at_ 1 ++ at_ 0

end Sys2Proof.Machine
end

