-- ==== Sys2Proof/Machine/Flags.lean ====
section
/-! DEFINITION. Every result flag the spec computes (R25, R45) and the decoded header (R34). -/

namespace Sys2Proof.Machine

/-- is_corrupt (R125, R45): the csum16 of the whole frame is not 0x0000. -/
def isCorrupt (f : List Byte) : Bool := csum16 f != 0x0000#16

/-- The frame has a first byte and all its 8 bits equal zext_8 of the bit (R122, R125). -/
def seqMatches (f : List Byte) (b : Bool) : Bool := f.head? == some (seqByte b)

/-- FRAME_OK: a whole header and a checksum that verifies (R25, R125). -/
def frameOk (f : List Byte) : Bool := decide (3 ≤ f.length) && !isCorrupt f

/-- STATUS after VERIFY of the frame `f` with RX_EXP = `b`: all six flags are written, every other bit kept (R125). -/
def verifyStatus (f : List Byte) (b : Bool) (st : Status) : Status :=
  { st with
    corrupt := isCorrupt f
    short := decide (f.length < 3)
    empty := decide (f.length = 0)
    seqMatch := seqMatches f b
    frameOk := frameOk f
    accept := frameOk f && seqMatches f b }

/-- RXHDR after VERIFY of the frame `f` (R34, R83, R125): the checksum field is read big-endian. -/
def frameHeader (f : List Byte) : RxHdr where
  rxSeq := f.headD 0x00#8
  rxCsum := if 3 ≤ f.length then f.getD 1 0x00#8 ++ f.getD 2 0x00#8 else 0x0000#16
  seqV := decide (1 ≤ f.length)
  hdrV := decide (3 ≤ f.length)

/-- is_ack_for (R128): exactly one received byte, equal to zext_8 of the bit. -/
def ackMatches (a : AckIn) (b : Bool) : Bool := a.len == 1#2 && a.byte0 == seqByte b

end Sys2Proof.Machine
end

