-- ==== Sys2Proof/Machine/Ops.lean ====
section
/-! DEFINITION. The shared operations: buffer writes, raising an error (the block's only exception mechanism,
R200), the write side of the registers, and the operations several commands share. -/

namespace Sys2Proof.Machine

/-- The memory after a byte is written, in canonical form: the offsets stay strictly rising. -/
def Memory.put : Memory → Nat → Byte → Memory
  | [], x, v => [(x, v)]
  | (o, b) :: rest, x, v =>
    if x < o then (x, v) :: (o, b) :: rest
    else if x = o then (o, v) :: rest
    else (o, b) :: Memory.put rest x v

/-- The canonical form of a buffer of `size` bytes: offsets strictly rising, each naming a byte that exists (R62). -/
def Memory.wf (size : Nat) : Memory → Bool
  | [] => true
  | (o, _) :: rest => decide (o < size) && rest.all (fun c => decide (o < c.1)) && Memory.wf size rest

/-- TXBUF[o] <- b (R10). -/
def putTx (s : State) (o : Nat) (b : Byte) : State := { s with txbuf := s.txbuf.put o b }

/-- RXBUF[o] <- b (R10). -/
def putRx (s : State) (o : Nat) (b : Byte) : State := { s with rxbuf := s.rxbuf.put o b }

/-- The sticky errors (R26). -/
inductive Err where
  | cmd | len | addr | rtt
deriving DecidableEq, Repr

/-- STATUS with one sticky bit set. -/
def setError (e : Err) (st : Status) : Status :=
  match e with
  | .cmd => { st with errCmd := true }
  | .len => { st with errLen := true }
  | .addr => { st with errAddr := true }
  | .rtt => { st with errRtt := true }

/-- `raise ERR_X` (R10, R200): the sticky bit becomes 1 and nothing else happens. There is no trap, no saved
state and no return from one (R207). -/
def raise (e : Err) (s : State) : State := { s with status := setError e s.status }

/-- The value of one sticky bit. -/
def errorBit (st : Status) : Err → Bool
  | .cmd => st.errCmd
  | .len => st.errLen
  | .addr => st.errAddr
  | .rtt => st.errRtt

/-- A host write to STATUS: write-1-to-clear on bits 19:16, every other bit kept (R26, R208). -/
def clearErrors (d : Word) (st : Status) : Status :=
  { st with
    errCmd := st.errCmd && !d.getLsbD 16
    errLen := st.errLen && !d.getLsbD 17
    errAddr := st.errAddr && !d.getLsbD 18
    errRtt := st.errRtt && !d.getLsbD 19 }

/-- A 64-bit register with its low half replaced (R42). -/
def setLow (x : Dword) (d : Word) : Dword := x.extractLsb' 32 32 ++ d

/-- A 64-bit register with its high half replaced (R42). -/
def setHigh (x : Dword) (d : Word) : Dword := d ++ x.extractLsb' 0 32

/-- A host write to a register (R101), less the command that a write to CMD issues: here CMD only stores LAST. -/
def writeReg (s : State) (r : Reg) (d : Word) : State :=
  match r with
  | .cmd => { s with cmdLast := d }
  | .status => { s with status := clearErrors d s.status }
  | .txlen =>
    if maxPacket s < (d.extractLsb' 0 16).toNat then raise .len s else { s with txplen := d.extractLsb' 0 16 }
  | .rxlen =>
    if maxPacket s + 3 < (d.extractLsb' 0 16).toNat then raise .len s else { s with rxflen := d.extractLsb' 0 16 }
  | .ackin =>
    if d.extractLsb' 16 2 = 3#2 then raise .len s
    else { s with ackin := ⟨d.extractLsb' 0 8, d.extractLsb' 8 8, d.extractLsb' 16 2⟩ }
  | .seq => { s with seq := ⟨d.getLsbD 0, d.getLsbD 1, d.getLsbD 2⟩ }
  | .sampleLo => { s with sample := setLow s.sample d }
  | .sampleHi => { s with sample := setHigh s.sample d }
  | .initTmoLo => { s with initTmo := setLow s.initTmo d }
  | .initTmoHi => { s with initTmo := setHigh s.initTmo d }
  | .ackout | .rxhdr | .csum | .maxpkt | .estLo | .estHi | .devLo | .devHi | .tmoLo | .tmoHi => s

/-- A host write to the buffer word at offset `o`: the lanes below BUF_SIZE are stored, the others ignored
(R64, R101). `put` writes one byte. -/
def writeLanes (put : State → Nat → Byte → State) (size o : Nat) (d : Word) (s : State) : State :=
  let store (s : State) (i : Nat) : State := if o + i < size then put s (o + i) (lane d i) else s
  store (store (store (store s 0) 1) 2) 3

/-- The header of a data frame written to a buffer: the sequence byte, then the checksum field big-endian (R63, R80). -/
def putHeader (b : Bool) (c : Half) (m : Memory) : Memory :=
  ((m.put 0 (seqByte b)).put 1 (c.extractLsb' 8 8)).put 2 (c.extractLsb' 0 8)

/-- The checksum of the frame with sequence bit `b` and the payload in TXBUF (R80, R123). -/
def frameChecksum (b : Bool) (s : State) : Half := csum16 (seqByte b :: txPayload s)

/-- The encoder of ENC and ENCI (R123, R124): the header of the frame for the sequence bit `b`, and CSUM. -/
def encodeFrame (b : Bool) (s : State) : State :=
  { s with txbuf := putHeader b (frameChecksum b s) s.txbuf, csum := frameChecksum b s }

/-- The decoder and integrity check of VERIFY and RXCOMMIT (R125). -/
def verifyFrame (s : State) : State :=
  { s with
    csum := csum16 (rxFrame s)
    status := verifyStatus (rxFrame s) s.seq.rxExp s.status
    rxhdr := frameHeader (rxFrame s) }

/-- ACK_MATCH of the received ack against the bit `b` (R128, R129). -/
def checkAck (b : Bool) (s : State) : State :=
  { s with status := { s.status with ackMatch := ackMatches s.ackin b } }

/-- The ack to transmit (R126, R127). -/
def setAck (byte : Byte) (valid : Bool) (s : State) : State := { s with ackout := ⟨byte, valid⟩ }

/-- SampleValid (R172): finite and not less than zero. -/
def sampleValid (v : Dword) : Bool := b64IsFinite v && !fnegStrict v

/-- E of R170: EstRTT = 0.875*EstRTT + 0.125*sampleRTT. -/
def nextEst (est sample : Dword) : Dword := fadd (fmul c0875 est) (fmul c0125 sample)

/-- D of R170: DevRTT = 0.75*DevRTT + 0.25*|sampleRTT - EstRTT|, with the just-updated EstRTT `e`. -/
def nextDev (dev sample e : Dword) : Dword := fadd (fmul c075 dev) (fmul c025 (fabs (fsub sample e)))

/-- T of R170: timeout = EstRTT + 4*DevRTT. -/
def nextTmo (e d : Dword) : Dword := fadd e (fmul c4 d)

/-- RttUpdate (R170), shared by RTTUPD and TXCOMMIT. -/
def rttUpdate (s : State) : State :=
  if sampleValid s.sample then
    let e := nextEst s.est s.sample
    let d := nextDev s.dev s.sample e
    { s with est := e, dev := d, tmo := nextTmo e d, status := { s.status with rttUpdated := true } }
  else
    let t := raise .rtt s
    { t with status := { t.status with rttUpdated := false } }

/-- The block while its reset input is asserted: the reset state of R220, the buffers with new unspecified
contents (R221), and what the host does next still to come. -/
def applyReset (s : State) : State :=
  { State.resetWith s.cfg (s.resetCount + 1) with resetIn := true, pending := s.pending }

end Sys2Proof.Machine
end

