-- ==== Sys2Proof/Machine/Codec.lean ====
section
/-! DEFINITION. The meanings of the packet codec commands (41_codec.md). None of them raises an error. -/

namespace Sys2Proof.Machine

/-- ENC (R123): the header for TX_SEQ. -/
def execEnc (s : State) : Host.Outcome State Fault Refusal := .next (encodeFrame s.seq.txSeq s)

/-- ENCI (R124): the header for the immediate bit; TX_SEQ is neither read nor changed. -/
def execEnci (b : Bool) (s : State) : Host.Outcome State Fault Refusal := .next (encodeFrame b s)

/-- VERIFY (R125). -/
def execVerify (s : State) : Host.Outcome State Fault Refusal := .next (verifyFrame s)

/-- ACKENC (R126): the received sequence byte, as the last VERIFY or RXCOMMIT left it. -/
def execAckenc (s : State) : Host.Outcome State Fault Refusal := .next (setAck s.rxhdr.rxSeq s.rxhdr.seqV s)

/-- ACKENCI (R127). -/
def execAckenci (b : Bool) (s : State) : Host.Outcome State Fault Refusal := .next (setAck (seqByte b) true s)

/-- ACKCHK (R128): against TX_SEQ. -/
def execAckchk (s : State) : Host.Outcome State Fault Refusal := .next (checkAck s.seq.txSeq s)

/-- ACKCHKI (R129): against the immediate bit. -/
def execAckchki (b : Bool) (s : State) : Host.Outcome State Fault Refusal := .next (checkAck b s)

end Sys2Proof.Machine
end

