-- ==== Sys2Proof/Machine/Commit.lean ====
section
/-! DEFINITION. The meanings of the per-frame commit commands (44_commit.md). -/

namespace Sys2Proof.Machine

/-- What a matching ack does with the round-trip sample (R190): the update, or none for a retransmitted chunk (Karn). -/
def feedSample (s : State) : State :=
  if s.seq.retx then { s with status := { s.status with rttUpdated := false } } else rttUpdate s

/-- The accepting branch of TXCOMMIT (R190), which an invalid sample does not stop (D42). -/
def acceptAck (s : State) : State :=
  let t := feedSample s
  { t with
    seq := { t.seq with txSeq := !t.seq.txSeq, retx := false }
    status := { t.status with advanced := true } }

/-- The other branch of TXCOMMIT (R190): the chunk is marked as retransmitted. -/
def rejectAck (s : State) : State :=
  { s with
    seq := { s.seq with retx := true }
    status := { s.status with advanced := false, rttUpdated := false } }

/-- TXCOMMIT (R190): the comparison uses TX_SEQ before the flip. -/
def execTxcommit (s : State) : Host.Outcome State Fault Refusal :=
  let t := checkAck s.seq.txSeq s
  if t.status.ackMatch then .next (acceptAck t) else .next (rejectAck t)

/-- The ack RXCOMMIT sets, from the state after the verification (R191): none for an empty read, the bit last
accepted or the received byte for a frame that fails FRAME_OK (R13), the received byte otherwise. -/
def receiverAck (v : State) : AckOut :=
  if v.rxhdr.seqV = false then ⟨0x00#8, false⟩
  else if v.status.frameOk = false ∧ v.cfg.rxCorruptAck = .lastAccepted then ⟨seqByte (!v.seq.rxExp), true⟩
  else ⟨v.rxhdr.rxSeq, true⟩

/-- RXCOMMIT (R191): VERIFY in full, the ack, then the flip of RX_EXP on ACCEPT. -/
def execRxcommit (s : State) : Host.Outcome State Fault Refusal :=
  let v := verifyFrame s
  .next { v with
    ackout := receiverAck v
    seq := { v.seq with rxExp := if v.status.accept then !v.seq.rxExp else v.seq.rxExp } }

end Sys2Proof.Machine
end

