-- ==== Sys2Proof/Machine/Nop.lean ====
section
/-! DEFINITION. The meaning of NOP (40_host_port.md). -/

namespace Sys2Proof.Machine

/-- NOP (R103): nothing. CMD.LAST is part of the write that carried it (R101). -/
def execNop (s : State) : Host.Outcome State Fault Refusal := .next s

end Sys2Proof.Machine
end

