-- ==== Sys2Proof/Machine/Rtt.lean ====
section
/-! DEFINITION. The meanings of the timeout and RTT commands (43_rtt.md). -/

namespace Sys2Proof.Machine

/-- RTTRST (R173): INITTMO is copied unchecked. -/
def execRttrst (s : State) : Host.Outcome State Fault Refusal :=
  .next { s with est := plusZero, dev := plusZero, tmo := s.initTmo, seq := { s.seq with retx := false } }

/-- RTTUPD (R174): RETX is not read. -/
def execRttupd (s : State) : Host.Outcome State Fault Refusal := .next (rttUpdate s)

/-- RETXMARK (R175). -/
def execRetxmark (s : State) : Host.Outcome State Fault Refusal :=
  .next { s with seq := { s.seq with retx := true } }

end Sys2Proof.Machine
end

