-- ==== Sys2Proof/Machine/Sequence.lean ====
section
/-! DEFINITION. The meanings of the sequence-bit toggle commands (42_sequence.md). -/

namespace Sys2Proof.Machine

/-- TXFLIP (R160). -/
def execTxflip (s : State) : Host.Outcome State Fault Refusal :=
  .next { s with seq := { s.seq with txSeq := !s.seq.txSeq } }

/-- RXFLIP (R161). -/
def execRxflip (s : State) : Host.Outcome State Fault Refusal :=
  .next { s with seq := { s.seq with rxExp := !s.seq.rxExp } }

/-- SEQRST (R162): both bits; RETX is kept. -/
def execSeqrst (s : State) : Host.Outcome State Fault Refusal :=
  .next { s with seq := { s.seq with txSeq := false, rxExp := false } }

end Sys2Proof.Machine
end

