-- ==== Sys2Proof/Machine/Dispatch.lean ====
section
/-! DEFINITION. The dispatch of a decoded command to its meaning (R102), one arm per row of R86. -/

namespace Sys2Proof.Machine

def exec (i : Instr) (s : State) : Host.Outcome State Fault Refusal :=
  match i with
  | .nop => Sys2Proof.Machine.execNop s
  | .enc => Sys2Proof.Machine.execEnc s
  | .enci b => Sys2Proof.Machine.execEnci b s
  | .verify => Sys2Proof.Machine.execVerify s
  | .ackenc => Sys2Proof.Machine.execAckenc s
  | .ackenci b => Sys2Proof.Machine.execAckenci b s
  | .ackchk => Sys2Proof.Machine.execAckchk s
  | .ackchki b => Sys2Proof.Machine.execAckchki b s
  | .txflip => Sys2Proof.Machine.execTxflip s
  | .rxflip => Sys2Proof.Machine.execRxflip s
  | .seqrst => Sys2Proof.Machine.execSeqrst s
  | .rttrst => Sys2Proof.Machine.execRttrst s
  | .rttupd => Sys2Proof.Machine.execRttupd s
  | .retxmark => Sys2Proof.Machine.execRetxmark s
  | .txcommit => Sys2Proof.Machine.execTxcommit s
  | .rxcommit => Sys2Proof.Machine.execRxcommit s

end Sys2Proof.Machine
end

