-- ==== Sys2Proof/Machine/HostPort.lean ====
section
/-! DEFINITION. The host port (40_host_port.md): the read and write transactions, command dispatch, and the
platform's reset input. -/

namespace Sys2Proof.Machine

/-- Perform (R102): the command a word issues, or ERR_CMD for an illegal word (R87, R201). -/
def perform (d : Word) (s : State) : Host.Outcome State Fault Refusal :=
  match decode d with
  | .ok i => exec i s
  | .error _ => .next (raise .cmd s)

/-- RD (R100): the data it returns goes to `rdata`. -/
def hostRead (a : Addr) (s : State) : State :=
  match target s a with
  | .misaligned => { raise .addr s with rdata := some 0#32 }
  | .unmapped => { raise .addr s with rdata := some 0#32 }
  | .reg r => { s with rdata := some (readReg s r) }
  | .txWord o => { s with rdata := some (bufferWord (txByte s) (bufSize s) o) }
  | .rxWord o => { s with rdata := some (bufferWord (rxByte s) (bufSize s) o) }

/-- WR (R101): a write to CMD stores LAST and then performs the word as a command. -/
def hostWrite (a : Addr) (d : Word) (s : State) : Host.Outcome State Fault Refusal :=
  match target s a with
  | .misaligned => .next (raise .addr s)
  | .unmapped => .next (raise .addr s)
  | .reg .cmd => perform d (writeReg s .cmd d)
  | .reg r => .next (writeReg s r d)
  | .txWord o => .next (writeLanes putTx (bufSize s) o d s)
  | .rxWord o => .next (writeLanes putRx (bufSize s) o d s)

/-- One event of the outside world. A transaction issued while the reset input is asserted has no effect (R220). -/
def serve (e : HostEvent) (s : State) : Host.Outcome State Fault Refusal :=
  match e with
  | .resetInput true => .next (applyReset s)
  | .resetInput false => .next { s with resetIn := false }
  | .rd a => if s.resetIn then .next s else .next (hostRead a s)
  | .wr a d => if s.resetIn then .next s else hostWrite a d s

/-- The state in which the next event is served: it is no longer pending, and the port returns nothing yet. -/
def takeEvent (rest : List HostEvent) (s : State) : State := { s with pending := rest, rdata := none }

/-- The block serves events one at a time in the host's order (R72) and is idle, keeping all state, when there is
none (R212). -/
def serveNext (s : State) : Host.Outcome State Fault Refusal :=
  match s.pending with
  | [] => .next s
  | e :: rest => serve e (takeEvent rest s)

end Sys2Proof.Machine
end

