-- ==== Sys2Proof/Machine/Step.lean ====
section
/-! DEFINITION. One step of the machine: one event of the outside world, served to completion (R225, R231). -/

namespace Sys2Proof.Machine

/-- One step. -/
def step (s : State) : Host.Outcome State Fault Refusal := serveNext s

/-- The state in which the host's next transaction is a write to CMD of the word with the low `nbits` bits of `w`
(the bits above them 0), the reset input released so that the write takes effect (R21, R102, R220). -/
def State.withFetchWord (s : State) (nbits w : Nat) : State :=
  { s with resetIn := false, pending := .wr (regAddr .cmd) (BitVec.ofNat 32 (w % 2 ^ min nbits 32)) :: s.pending }

end Sys2Proof.Machine
end

