-- ==== Sys2Proof/Machine/Program.lean ====
section
/-! DEFINITION. Programs for the block: lists of lines, and the host transactions they stand for (R89, R90). -/

namespace Sys2Proof.Machine

/-- The host address an operand names (R89). -/
def operandAddr : AddrOperand → Addr
  | .num a => a
  | .reg r => regAddr r
  | .txbuf o => BitVec.ofNat 16 (txWindow + o)
  | .rxbuf o => BitVec.ofNat 16 (rxWindow + o)

/-- A 32-bit word from its four lanes, lane 0 lowest (R64). -/
def wordOfLanes (byte : Nat → Byte) : Word := byte 3 ++ byte 2 ++ byte 1 ++ byte 0

/-- `n` writes of the words of a buffer window, in increasing k: `WR W+4k, w_k`, where lane i of w_k is
`byte (4k + i)` (R90). -/
def windowWrites (window n : Nat) (byte : Nat → Byte) : List HostEvent :=
  (List.range n).map fun k => .wr (BitVec.ofNat 16 (window + 4 * k)) (wordOfLanes fun i => byte (4 * k + i))

/-- The expansions of R90. -/
def expandPseudo : Pseudo → List HostEvent
  | .clrerr => [.wr (regAddr .status) 0x000F0000#32]
  | .ldsample v =>
    [.wr (regAddr .sampleLo) (v.extractLsb' 0 32), .wr (regAddr .sampleHi) (v.extractLsb' 32 32)]
  | .ldinittmo v =>
    [.wr (regAddr .initTmoLo) (v.extractLsb' 0 32), .wr (regAddr .initTmoHi) (v.extractLsb' 32 32)]
  | .ldtx p =>
    windowWrites txWindow ((p.length + 2) / 4 + 1) (fun o => if 3 ≤ o then p.getD (o - 3) 0x00#8 else 0x00#8)
      ++ [.wr (regAddr .txlen) (BitVec.ofNat 32 p.length)]
  | .ldrx f =>
    windowWrites rxWindow ((f.length + 3) / 4) (fun o => f.getD o 0x00#8)
      ++ [.wr (regAddr .rxlen) (BitVec.ofNat 32 f.length)]
  | .ldack b =>
    [.wr (regAddr .ackin) (BitVec.ofNat 16 b.length ++ b.getD 1 0x00#8 ++ b.getD 0 0x00#8)]

/-- The transactions a line stands for; a command stands for `WR CMD, <word>` (R89). -/
def expandLine : Line → List HostEvent
  | .wr a v => [.wr (operandAddr a) v]
  | .rd a _ => [.rd (operandAddr a)]
  | .command i => [.wr (regAddr .cmd) (encode i)]
  | .pseudo p => expandPseudo p

/-- The transactions of a program, in its order. -/
def expandProgram (p : List Line) : List HostEvent := p.flatMap expandLine

/-- Whether the state after a line's transaction agrees with the value that an `RD <addr> -> <value>` states (R89). -/
def agreesWith (l : Line) (s : State) : Bool :=
  match l with
  | .rd _ (some v) => s.rdata == some v
  | .rd _ none | .wr _ _ | .command _ | .pseudo _ => true

end Sys2Proof.Machine
end

