-- ==== Sys2Proof/Safety.lean ====
section
/-! DEFINITION. What counts as a legal state and a safe run, and the terms that statements about the machine use. -/

namespace Sys2Proof.Machine

/-- A binary64 encoding that is +0.0 or positive, +inf among them, and no NaN (R177): the sign bit is 0 and
the rest is at most the bits of an infinity. -/
def NonNegative (v : Dword) : Prop := v.toNat ≤ 0x7FF0000000000000

/-- The number a finite binary64 encoding stands for (R11). -/
def b64Value (v : Dword) : ℚ := (if b64Neg v then -1 else 1) * (b64Mag v : ℚ) / 2 ^ 1074

/-- `r` is `x` rounded to nearest, ties to even (R11): `r` is finite, no finite value is nearer to `x`, and where
a different value is as near, the last place of `r` is even. -/
def IsNearestEven (x : ℚ) (r : Dword) : Prop :=
  b64IsFinite r = true ∧
  (∀ v : Dword, b64IsFinite v = true → |x - b64Value r| ≤ |x - b64Value v|) ∧
  (∀ v : Dword, b64IsFinite v = true → |x - b64Value v| = |x - b64Value r| → b64Value v ≠ b64Value r →
    r.getLsbD 0 = false)

/-- Where rounding to nearest overflows: half a last place above the greatest finite value, 2^1024 - 2^970. -/
def overflowBound : ℚ := 2 ^ 1024 - 2 ^ 970

/-- The legal states of a block: what every step keeps, whatever the host does. -/
structure Legal (s : State) : Prop where
  /-- TXPLEN is a legal length (R27). -/
  txLength : s.txplen.toNat ≤ maxPacket s
  /-- RXFLEN is a legal length (R28). -/
  rxLength : s.rxflen.toNat ≤ maxPacket s + 3
  /-- ACKLEN is 0, 1 or 2 (R29). -/
  ackLength : s.ackin.len ≠ 3#2
  /-- TXBUF lists only bytes that exist, in canonical form (R62). -/
  txBuffer : s.txbuf.wf (bufSize s) = true
  /-- RXBUF lists only bytes that exist, in canonical form (R62). -/
  rxBuffer : s.rxbuf.wf (bufSize s) = true
  /-- An empty frame is short and corrupt and has no sequence byte (R125). -/
  emptyFrame : s.status.empty = true → s.status.short = true ∧ s.status.corrupt = true ∧ s.rxhdr.seqV = false
  /-- A short frame has no header (R34, R125). -/
  shortFrame : s.status.short = true → s.rxhdr.hdrV = false
  /-- A header has a sequence byte (R34). -/
  headerHasByte : s.rxhdr.hdrV = true → s.rxhdr.seqV = true
  /-- RXSEQ is 0 where the frame had no byte (R34). -/
  noByte : s.rxhdr.seqV = false → s.rxhdr.rxSeq = 0x00#8
  /-- RXCSUM is 0 where the frame had no header (R34). -/
  noHeader : s.rxhdr.hdrV = false → s.rxhdr.rxCsum = 0x0000#16
  /-- A sequence byte that matched is 0x00 or 0x01 (R122). -/
  matchedByte : s.status.seqMatch = true → s.rxhdr.seqV = true ∧ s.rxhdr.rxSeq.toNat ≤ 1
  /-- FRAME_OK is a header and no corruption (R25, R125). -/
  frameOkFlag : s.status.frameOk = (s.rxhdr.hdrV && !s.status.corrupt)
  /-- ACCEPT is FRAME_OK and SEQ_MATCH (R25). -/
  acceptFlag : s.status.accept = (s.status.frameOk && s.status.seqMatch)
  /-- ACKBYTE is 0 where there is no ack to send (R30, R126, R191). -/
  noAck : s.ackout.valid = false → s.ackout.byte = 0x00#8
  /-- EST is +0.0 or positive (R177). -/
  estRange : NonNegative s.est
  /-- DEV is +0.0 or positive (R177). -/
  devRange : NonNegative s.dev
  /-- While the reset input is asserted the block stays in its reset state (R220). -/
  heldInReset : s.resetIn = true →
    s = { State.resetWith s.cfg s.resetCount with resetIn := true, pending := s.pending }

/-- No sticky error is set: the host has misused nothing since it last cleared them (R26). -/
def ErrorFree (s : State) : Prop := ∀ e, errorBit s.status e = false

/-- A safe run of `n` steps: every step answers a next state, and every state on the way is legal. -/
def SafeRun : Nat → State → Prop
  | 0, s => Legal s
  | n + 1, s => Legal s ∧ ∃ t, step s = .next t ∧ SafeRun n t

/-- The bits of STATUS: the result flags of R25 and the sticky errors of R26. The others are reserved and read 0. -/
def statusBits : List (Status → Bool) :=
  [Status.corrupt, Status.short, Status.empty, Status.seqMatch, Status.frameOk, Status.accept, Status.ackMatch,
   Status.advanced, Status.rttUpdated, Status.errCmd, Status.errLen, Status.errAddr, Status.errRtt]

/-- The registers of a state are at the reset values of R220. -/
structure ResetRegisters (s : State) : Prop where
  cmd : s.cmdLast = 0x00000000#32
  status : statusWord s.status = 0x00000000#32
  txplen : s.txplen = 0#16
  rxflen : s.rxflen = 0#16
  ackin : s.ackin = ⟨0x00#8, 0x00#8, 0#2⟩
  ackout : s.ackout = ⟨0x00#8, false⟩
  txSeq : s.seq.txSeq = false
  rxExp : s.seq.rxExp = false
  retx : s.seq.retx = false
  rxhdr : s.rxhdr = ⟨0x00#8, 0x0000#16, false, false⟩
  csum : s.csum = 0x0000#16
  sample : s.sample = 0x0000000000000000#64
  est : s.est = 0x0000000000000000#64
  dev : s.dev = 0x0000000000000000#64
  tmo : s.tmo = s.cfg.initTimeoutReset
  initTmo : s.initTmo = s.cfg.initTimeoutReset

/-- The words that R87 lists as illegal, by their fields: Z1, Z0, B without I, I with an OPC that has no immediate
form, an OPC not in the table. -/
def IllegalByFields (w : Word) : Prop :=
  w.extractLsb' 16 16 ≠ 0#16 ∨ w.extractLsb' 2 6 ≠ 0#6 ∨ (w.getLsbD 1 = false ∧ w.getLsbD 0 = true) ∨
  (w.getLsbD 1 = true ∧ w.extractLsb' 8 8 ∉ [0x10#8, 0x12#8, 0x13#8]) ∨
  w.extractLsb' 8 8 ∉ [0x00#8, 0x10#8, 0x11#8, 0x12#8, 0x13#8, 0x20#8, 0x21#8, 0x22#8, 0x30#8, 0x31#8, 0x32#8,
    0x40#8, 0x41#8]

/-- A host address that names nothing, aligned or not, by the map of R61 and the buffer size of R62. -/
def UnmappedAddr (s : State) (a : Addr) : Prop :=
  (0x0050 ≤ a.toNat ∧ a.toNat ≤ 0x0FFF) ∨ 0x3000 ≤ a.toNat ∨
  (0x1000 ≤ a.toNat ∧ a.toNat ≤ 0x1FFF ∧ bufSize s ≤ a.toNat - 0x1000) ∨
  (0x2000 ≤ a.toNat ∧ a.toNat ≤ 0x2FFF ∧ bufSize s ≤ a.toNat - 0x2000)

/-- The next event is a write of `d` to host address `a`, and the block is not held in reset. -/
def WritesNext (s : State) (a : Addr) (d : Word) (rest : List HostEvent) : Prop :=
  s.resetIn = false ∧ s.pending = .wr a d :: rest

/-- The next event is a read of host address `a`, and the block is not held in reset. -/
def ReadsNext (s : State) (a : Addr) (rest : List HostEvent) : Prop :=
  s.resetIn = false ∧ s.pending = .rd a :: rest

/-- The next event issues the command `i` by a write to CMD (R102). -/
def Issues (s : State) (i : Instr) : Prop :=
  ∃ w rest, WritesNext s 0x0000#16 w rest ∧ decode w = .ok i

/-- The next event asserts the reset input (R220). -/
def AssertsReset (s : State) : Prop := ∃ rest, s.pending = .resetInput true :: rest

/-- SampleValid by the bits of the sample (R11, R172). -/
def ValidSampleBits (v : Dword) : Prop :=
  v.extractLsb' 52 11 ≠ 0x7FF#11 ∧ ¬(v.getLsbD 63 = true ∧ v.extractLsb' 0 63 ≠ 0#63)

/-- The command a step issues, if its event is a write to CMD of a legal word. -/
def issued (s : State) : Option Instr :=
  match s.resetIn, s.pending with
  | false, .wr a w :: _ => if a = 0x0000#16 then decodeTableWord 32 w.toNat else none
  | _, _ => none

/-- TX_SEQ at the TXCOMMITs of the next `n` steps that report ADVANCED = 1, in order (R163). -/
def advancedBits : Nat → State → List Bool
  | 0, _ => []
  | n + 1, s =>
    match step s with
    | .next t =>
      if issued s = some .txcommit ∧ t.status.advanced = true then s.seq.txSeq :: advancedBits n t
      else advancedBits n t
    | _ => []

/-- The sequence bytes of the frames that the RXCOMMITs of the next `n` steps accept, in order (R163). -/
def acceptedBytes : Nat → State → List Byte
  | 0, _ => []
  | n + 1, s =>
    match step s with
    | .next t =>
      if issued s = some .rxcommit ∧ t.status.accept = true then t.rxhdr.rxSeq :: acceptedBytes n t
      else acceptedBytes n t
    | _ => []

/-- The host changes TX_SEQ only through TXCOMMIT (R163): it writes no SEQ, issues no TXFLIP and no SEQRST, and the
block is not reset. -/
def OnlyTxcommitFlips (e : HostEvent) : Prop :=
  match e with
  | .wr a w => a ≠ 0x0018#16 ∧ (a = 0x0000#16 → decode w ≠ .ok .txflip ∧ decode w ≠ .ok .seqrst)
  | .rd _ => True
  | .resetInput asserted => asserted = false

/-- The host changes RX_EXP only through RXCOMMIT (R163). -/
def OnlyRxcommitFlips (e : HostEvent) : Prop :=
  match e with
  | .wr a w => a ≠ 0x0018#16 ∧ (a = 0x0000#16 → decode w ≠ .ok .rxflip ∧ decode w ≠ .ok .seqrst)
  | .rd _ => True
  | .resetInput asserted => asserted = false

/-- The commands of the sender's side (R211). -/
def senderCommands : List Instr :=
  [.enc, .enci false, .enci true, .ackchk, .ackchki false, .ackchki true, .txflip, .rttrst, .rttupd, .retxmark,
   .txcommit]

/-- The commands of the receiver's side (R211). -/
def receiverCommands : List Instr := [.verify, .ackenc, .ackenci false, .ackenci true, .rxflip, .rxcommit]

/-- Two states agree on the sender's side (R211), on its part of STATUS, on the parameters and on the free bytes. -/
def SenderSideEq (s t : State) : Prop :=
  s.cfg = t.cfg ∧ s.resetCount = t.resetCount ∧ s.txbuf = t.txbuf ∧ s.txplen = t.txplen ∧ s.ackin = t.ackin ∧
  s.seq.txSeq = t.seq.txSeq ∧ s.seq.retx = t.seq.retx ∧ s.sample = t.sample ∧ s.est = t.est ∧ s.dev = t.dev ∧
  s.tmo = t.tmo ∧ s.initTmo = t.initTmo ∧ s.status.ackMatch = t.status.ackMatch ∧
  s.status.advanced = t.status.advanced ∧ s.status.rttUpdated = t.status.rttUpdated ∧ s.status.errRtt = t.status.errRtt

/-- Two states agree on the receiver's side (R211), on its part of STATUS, on the parameters and on the free bytes. -/
def ReceiverSideEq (s t : State) : Prop :=
  s.cfg = t.cfg ∧ s.resetCount = t.resetCount ∧ s.rxbuf = t.rxbuf ∧ s.rxflen = t.rxflen ∧ s.seq.rxExp = t.seq.rxExp ∧
  s.ackout = t.ackout ∧ s.rxhdr = t.rxhdr ∧ s.status.corrupt = t.status.corrupt ∧ s.status.short = t.status.short ∧
  s.status.empty = t.status.empty ∧ s.status.seqMatch = t.status.seqMatch ∧ s.status.frameOk = t.status.frameOk ∧
  s.status.accept = t.status.accept

end Sys2Proof.Machine
end

