-- ==== Sys2Proof/Certificates/Slice0/Obligations.lean ====
section
/-! DEFINITION. The statements for the provers, `def Obligations.<Name> : Prop`, in the order of OBLIGATIONS.json.

Statements about `step` also say what happens to `pending` and `rdata`. These two fields are the model's own (log
entries 5 and 6): that part of a statement is the model's choice and formalises no rule. -/

open Sys2Proof Sys2Proof.Machine

/-! ### Encoding -/

/-- 30_encoding.md: the decoder of R86 and the word format of R84 agree in both directions: every command's word
decodes to it, and every legal word is the word of the command it decodes to, so no bit of a legal word is
dropped. -/
def Obligations.DecodeInvertsEncode : Prop :=
  ∀ (w : Word) (i : Instr), decode w = .ok i ↔ encode i = w

/-- R86: a word matches a row iff `(word & mask) == rowword`, at most one row matches any word, and a word that
matches is decoded to that row's command with B = bit 0. -/
def Obligations.OpcodeRowsDecideEveryWord : Prop :=
  (∀ (w : Word) (r r' : OpcodeRow), r ∈ opcodeTable → r' ∈ opcodeTable →
    w &&& r.mask = r.word → w &&& r'.mask = r'.word → r = r') ∧
  (∀ (w : Word) (r : OpcodeRow), r ∈ opcodeTable → w &&& r.mask = r.word →
    decode w = .ok (r.command (w.getLsbD 0)) ∧ (r.command (w.getLsbD 0)).mnemonic = r.mnemonic) ∧
  (∀ w : Word, (∀ r ∈ opcodeTable, w &&& r.mask ≠ r.word) → ∀ i, decode w ≠ .ok i)

/-- R87: exactly the words with Z1 or Z0 not 0, B = 1 without I, I = 1 with an OPC that has no immediate form, or an
OPC not in the table are illegal; writing one to CMD stores it in CMD.LAST, raises ERR_CMD and changes nothing else. -/
def Obligations.IllegalWordsOnlySetErrCmd : Prop :=
  (∀ w : Word, (∀ i, decode w ≠ .ok i) ↔ IllegalByFields w) ∧
  (∀ (s : State) (w : Word) (rest : List HostEvent), WritesNext s 0x0000#16 w rest → IllegalByFields w →
    step s = .next { s with
      pending := rest, rdata := none, cmdLast := w, status := { s.status with errCmd := true } })

/-- 30_encoding.md R86: words of every family, written out, decode to their commands. -/
def Obligations.SpecWordsDecode : Prop :=
  decode 0x00000000#32 = .ok .nop ∧ decode 0x00001000#32 = .ok .enc ∧ decode 0x00001003#32 = .ok (.enci true) ∧
  decode 0x00001100#32 = .ok .verify ∧ decode 0x00001202#32 = .ok (.ackenci false) ∧
  decode 0x00001300#32 = .ok .ackchk ∧ decode 0x00002200#32 = .ok .seqrst ∧ decode 0x00003100#32 = .ok .rttupd ∧
  decode 0x00004000#32 = .ok .txcommit ∧ decode 0x00004100#32 = .ok .rxcommit

/-! ### The step, reset and the invariant -/

/-- 40_host_port.md R101, R102: when the next event writes a legal word to CMD, the step stores the word in CMD.LAST
and runs its command; the model's own `pending` and `rdata` move on. -/
def Obligations.StepRunsDecodedCommand : Prop :=
  ∀ (s : State) (w : Word) (rest : List HostEvent) (i : Instr), WritesNext s 0x0000#16 w rest → decode w = .ok i →
    step s = exec i { s with pending := rest, rdata := none, cmdLast := w }

/-- The legal states are kept by every step, whatever the host does (10_state.md R27 to R30, R34; 41_codec.md R125;
43_rtt.md R177; 70_reset_and_hazards.md R220). -/
def Obligations.StepKeepsLegal : Prop := ∀ s t : State, Legal s → step s = .next t → Legal t

/-- The state after reset is legal, for every block and after any number of resets (70_reset_and_hazards.md R220;
the parameters of `State.reset` are open, log entry 1). -/
def Obligations.ResetStateIsLegal : Prop :=
  Legal State.reset ∧ ∀ (cfg : Config.Params) (n : Nat), Legal (State.resetWith cfg n)

/-- 60_exceptions.md R200, R207: nothing traps and nothing stops the block: from a legal state every run is safe. -/
def Obligations.EveryRunIsSafe : Prop := ∀ (n : Nat) (s : State), Legal s → SafeRun n s

/-- 60_exceptions.md R212: the block keeps all state while idle, however long. That a step with no pending event is
such an idle step is the model's choice (log entry 5). -/
def Obligations.IdleKeepsAllState : Prop :=
  ∀ (n : Nat) (s : State), s.pending = [] → Sys2Proof.core.run n s = .next s

/-- 70_reset_and_hazards.md R220: power-on reset and the reset input (events of the model, log entry 4) leave every
register at its reset value and MAXPKT at MAX_PACKET; a transaction issued while reset is asserted has no effect; one
issued after its release sees the reset state; SEQRST followed by RTTRST changes nothing of the reset state. -/
def Obligations.ResetLeavesTheResetState : Prop :=
  ResetRegisters State.reset ∧ readReg State.reset .maxpkt = BitVec.ofNat 32 (Config.payloadCap.val + 1) ∧
  (∃ u, exec .seqrst State.reset = .next u ∧ exec .rttrst u = .next State.reset) ∧
  (∀ (s : State) (rest : List HostEvent), s.pending = .resetInput true :: rest →
    ∃ t, step s = .next t ∧ ResetRegisters t ∧ t.cfg = s.cfg ∧ t.resetIn = true ∧ t.pending = rest) ∧
  (∀ (s : State) (e : HostEvent) (rest : List HostEvent), s.resetIn = true → s.pending = e :: rest →
    (∀ asserted, e ≠ .resetInput asserted) → step s = .next { s with pending := rest, rdata := none }) ∧
  (∀ (s : State) (rest : List HostEvent), s.pending = .resetInput false :: rest →
    step s = .next { s with pending := rest, rdata := none, resetIn := false })

/-- 70_reset_and_hazards.md R221: after reset a buffer byte is the free value of log entry 2, and it changes only when
the host writes the word that holds it, when ENC or ENCI writes the header, or at a reset. -/
def Obligations.BufferBytesKeepTheirValue : Prop :=
  (∀ (cfg : Config.Params) (n o : Nat), txByte (State.resetWith cfg n) o = Config.bufferByte n (0x1000 + o) ∧
    rxByte (State.resetWith cfg n) o = Config.bufferByte n (0x2000 + o)) ∧
  (∀ (s t : State) (o : Nat), step s = .next t → txByte t o ≠ txByte s o →
    AssertsReset s ∨ (o < 3 ∧ (Issues s .enc ∨ ∃ b, Issues s (.enci b))) ∨
    ∃ a d rest, WritesNext s a d rest ∧ a.toNat = 0x1000 + o / 4 * 4 ∧ o < bufSize s) ∧
  (∀ (s t : State) (o : Nat), step s = .next t → rxByte t o ≠ rxByte s o →
    AssertsReset s ∨ ∃ a d rest, WritesNext s a d rest ∧ a.toNat = 0x2000 + o / 4 * 4 ∧ o < bufSize s)

/-- 70_reset_and_hazards.md R222: straight after reset ENC writes the empty frame 00 FF FF, and VERIFY reports EMPTY. -/
def Obligations.CommandsStraightAfterReset : Prop :=
  (∃ t, exec .enc State.reset = .next t ∧ txFrame t = [0x00#8, 0xFF#8, 0xFF#8] ∧ readReg t .txlen = 0x00030000#32) ∧
  (∃ t, exec .verify State.reset = .next t ∧ readReg t .status = 0x00000007#32)

/-- 00_scope.md R8, 10_state.md R36: the three parameters are fixed; no event changes them, nor what MAXPKT reads as. -/
def Obligations.NoStepChangesParameters : Prop :=
  ∀ s t : State, step s = .next t → t.cfg = s.cfg ∧ readReg t .maxpkt = readReg s .maxpkt

/-! ### The host port -/

/-- 20_memory.md R61, 40_host_port.md R100, 10_state.md R43: each register stands at its address of the map, and a
read of that address returns the register and has no side effect.
`rdata` is the model's record of what the port returned (log entry 6). -/
def Obligations.RegisterReadsHaveNoSideEffect : Prop :=
  (regAddr .cmd = 0x0000#16 ∧ regAddr .status = 0x0004#16 ∧ regAddr .txlen = 0x0008#16 ∧ regAddr .rxlen = 0x000C#16 ∧
    regAddr .ackin = 0x0010#16 ∧ regAddr .ackout = 0x0014#16 ∧ regAddr .seq = 0x0018#16 ∧
    regAddr .rxhdr = 0x001C#16 ∧ regAddr .csum = 0x0020#16 ∧ regAddr .maxpkt = 0x0024#16 ∧
    regAddr .sampleLo = 0x0028#16 ∧ regAddr .sampleHi = 0x002C#16 ∧ regAddr .estLo = 0x0030#16 ∧
    regAddr .estHi = 0x0034#16 ∧ regAddr .devLo = 0x0038#16 ∧ regAddr .devHi = 0x003C#16 ∧
    regAddr .tmoLo = 0x0040#16 ∧ regAddr .tmoHi = 0x0044#16 ∧ regAddr .initTmoLo = 0x0048#16 ∧
    regAddr .initTmoHi = 0x004C#16) ∧
  ∀ (s : State) (r : Reg) (rest : List HostEvent), ReadsNext s (regAddr r) rest →
    step s = .next { s with pending := rest, rdata := some (readReg s r) }

/-- 10_state.md R24 to R42: where the fields of every register stand in the word a read returns, and that the
reserved bits read 0. CMD has the one field LAST. -/
def Obligations.RegisterFieldsAtTheirBits : Prop :=
  ∀ s : State,
    (readReg s .cmd = s.cmdLast) ∧
    ((readReg s .status).getLsbD 0 = s.status.corrupt ∧ (readReg s .status).getLsbD 1 = s.status.short ∧
      (readReg s .status).getLsbD 2 = s.status.empty ∧ (readReg s .status).getLsbD 3 = s.status.seqMatch ∧
      (readReg s .status).getLsbD 4 = s.status.frameOk ∧ (readReg s .status).getLsbD 5 = s.status.accept ∧
      (readReg s .status).getLsbD 6 = s.status.ackMatch ∧ (readReg s .status).getLsbD 7 = s.status.advanced ∧
      (readReg s .status).getLsbD 8 = s.status.rttUpdated ∧ (readReg s .status).extractLsb' 9 7 = 0#7 ∧
      (readReg s .status).getLsbD 16 = s.status.errCmd ∧ (readReg s .status).getLsbD 17 = s.status.errLen ∧
      (readReg s .status).getLsbD 18 = s.status.errAddr ∧ (readReg s .status).getLsbD 19 = s.status.errRtt ∧
      (readReg s .status).extractLsb' 20 12 = 0#12) ∧
    ((readReg s .txlen).extractLsb' 0 16 = s.txplen ∧ (readReg s .txlen).extractLsb' 16 16 = s.txplen + 3#16) ∧
    ((readReg s .rxlen).extractLsb' 0 16 = s.rxflen ∧
      ((readReg s .rxlen).extractLsb' 16 16).toNat = s.rxflen.toNat - 3) ∧
    ((readReg s .ackin).extractLsb' 0 8 = s.ackin.byte0 ∧ (readReg s .ackin).extractLsb' 8 8 = s.ackin.byte1 ∧
      (readReg s .ackin).extractLsb' 16 2 = s.ackin.len ∧ (readReg s .ackin).extractLsb' 18 14 = 0#14) ∧
    ((readReg s .ackout).extractLsb' 0 8 = s.ackout.byte ∧ (readReg s .ackout).getLsbD 8 = s.ackout.valid ∧
      (readReg s .ackout).extractLsb' 9 23 = 0#23) ∧
    ((readReg s .seq).getLsbD 0 = s.seq.txSeq ∧ (readReg s .seq).getLsbD 1 = s.seq.rxExp ∧
      (readReg s .seq).getLsbD 2 = s.seq.retx ∧ (readReg s .seq).extractLsb' 3 29 = 0#29) ∧
    ((readReg s .rxhdr).extractLsb' 0 8 = s.rxhdr.rxSeq ∧ (readReg s .rxhdr).extractLsb' 8 16 = s.rxhdr.rxCsum ∧
      (readReg s .rxhdr).getLsbD 24 = s.rxhdr.seqV ∧ (readReg s .rxhdr).getLsbD 25 = s.rxhdr.hdrV ∧
      (readReg s .rxhdr).extractLsb' 26 6 = 0#6) ∧
    ((readReg s .csum).extractLsb' 0 16 = s.csum ∧ (readReg s .csum).extractLsb' 16 16 = 0#16) ∧
    ((readReg s .maxpkt).toNat = maxPacket s) ∧
    (readReg s .sampleHi ++ readReg s .sampleLo = s.sample ∧ readReg s .estHi ++ readReg s .estLo = s.est ∧
      readReg s .devHi ++ readReg s .devLo = s.dev ∧ readReg s .tmoHi ++ readReg s .tmoLo = s.tmo ∧
      readReg s .initTmoHi ++ readReg s .initTmoLo = s.initTmo)

/-- R67: a transaction with a[1:0] != 0 accesses nothing, raises ERR_ADDR, returns 0 if it is a read and changes
nothing else if it is a write; it issues no command. -/
def Obligations.MisalignedAccessRaisesErrAddr : Prop :=
  ∀ (s : State) (a : Addr) (d : Word) (rest : List HostEvent), a.extractLsb' 0 2 ≠ 0#2 →
    (ReadsNext s a rest → step s = .next { s with
      pending := rest, rdata := some 0x00000000#32, status := { s.status with errAddr := true } }) ∧
    (WritesNext s a d rest → step s = .next { s with
      pending := rest, rdata := none, status := { s.status with errAddr := true } })

/-- R69: an aligned transaction to an unmapped address reads 0 or ignores its data, and raises ERR_ADDR. -/
def Obligations.UnmappedAccessRaisesErrAddr : Prop :=
  ∀ (s : State) (a : Addr) (d : Word) (rest : List HostEvent), a.toNat % 4 = 0 → UnmappedAddr s a →
    (ReadsNext s a rest → step s = .next { s with
      pending := rest, rdata := some 0x00000000#32, status := { s.status with errAddr := true } }) ∧
    (WritesNext s a d rest → step s = .next { s with
      pending := rest, rdata := none, status := { s.status with errAddr := true } })

/-- 20_memory.md R64, 40_host_port.md R100: a read of a mapped buffer word returns its bytes in little-endian lanes,
0x00 in a lane at or above BUF_SIZE, and raises no error. -/
def Obligations.BufferWordReadsLanes : Prop :=
  ∀ (s : State) (a : Addr) (o : Nat) (rest : List HostEvent), o % 4 = 0 → o < bufSize s → ReadsNext s a rest →
    (a.toNat = 0x1000 + o → ∃ v : Word, step s = .next { s with pending := rest, rdata := some v } ∧
      ∀ i < 4, v.extractLsb' (8 * i) 8 = if o + i < bufSize s then txByte s (o + i) else 0x00#8) ∧
    (a.toNat = 0x2000 + o → ∃ v : Word, step s = .next { s with pending := rest, rdata := some v } ∧
      ∀ i < 4, v.extractLsb' (8 * i) 8 = if o + i < bufSize s then rxByte s (o + i) else 0x00#8)

/-- 20_memory.md R64, 40_host_port.md R101: a write of a mapped buffer word stores its lanes below BUF_SIZE, leaves
every other byte of both buffers, every register and every flag as they were, and raises no error. -/
def Obligations.BufferWordWriteStoresLanes : Prop :=
  ∀ (s : State) (a : Addr) (d : Word) (o : Nat) (rest : List HostEvent), o % 4 = 0 → o < bufSize s →
    WritesNext s a d rest →
    (a.toNat = 0x1000 + o → ∃ t, step s = .next t ∧
      (∀ x, txByte t x = if o ≤ x ∧ x < o + 4 ∧ x < bufSize s then d.extractLsb' (8 * (x - o)) 8 else txByte s x) ∧
      t = { s with pending := rest, rdata := none, txbuf := t.txbuf }) ∧
    (a.toNat = 0x2000 + o → ∃ t, step s = .next t ∧
      (∀ x, rxByte t x = if o ≤ x ∧ x < o + 4 ∧ x < bufSize s then d.extractLsb' (8 * (x - o)) 8 else rxByte s x) ∧
      t = { s with pending := rest, rdata := none, rxbuf := t.rxbuf })

/-- R208: the host clears sticky bits by writing 1s to them, which changes nothing else and raises no error; CLRERR
clears all four; nothing else clears them except reset. -/
def Obligations.StickyErrorsClearedOnlyByStatusWrite : Prop :=
  (∀ (s : State) (d : Word) (rest : List HostEvent), WritesNext s 0x0004#16 d rest →
    step s = .next { s with
      pending := rest, rdata := none
      status := { s.status with
        errCmd := s.status.errCmd && !d.getLsbD 16, errLen := s.status.errLen && !d.getLsbD 17
        errAddr := s.status.errAddr && !d.getLsbD 18, errRtt := s.status.errRtt && !d.getLsbD 19 } }) ∧
  (∀ s : State, s.resetIn = false → s.pending = expandPseudo .clrerr → ∃ t, step s = .next t ∧ ErrorFree t) ∧
  (∀ (s t : State) (e : Err), step s = .next t → errorBit s.status e = true → errorBit t.status e = false →
    AssertsReset s ∨ ∃ d rest, WritesNext s 0x0004#16 d rest)

/-- 60_exceptions.md R201 to R206: one event sets at most one sticky bit, and each bit has its cause: an illegal word
written to CMD, an out-of-range length write, a misaligned or unmapped access, an RTT update with an invalid
sample. -/
def Obligations.StickyErrorsHaveTheirCauses : Prop :=
  ∀ (s t : State), step s = .next t →
    (∀ e e' : Err, errorBit s.status e = false → errorBit t.status e = true →
      errorBit s.status e' = false → errorBit t.status e' = true → e = e') ∧
    (s.status.errCmd = false → t.status.errCmd = true →
      ∃ w rest, WritesNext s 0x0000#16 w rest ∧ IllegalByFields w) ∧
    (s.status.errLen = false → t.status.errLen = true →
      ∃ a d rest, WritesNext s a d rest ∧
        ((a = 0x0008#16 ∧ maxPacket s < (d.extractLsb' 0 16).toNat) ∨
         (a = 0x000C#16 ∧ maxPacket s + 3 < (d.extractLsb' 0 16).toNat) ∨
         (a = 0x0010#16 ∧ d.extractLsb' 16 2 = 3#2))) ∧
    (s.status.errAddr = false → t.status.errAddr = true →
      ∃ a rest, (ReadsNext s a rest ∨ ∃ d, WritesNext s a d rest) ∧
        (a.extractLsb' 0 2 ≠ 0#2 ∨ UnmappedAddr s a)) ∧
    (s.status.errRtt = false → t.status.errRtt = true →
      ¬ValidSampleBits s.sample ∧ (Issues s .rttupd ∨
        (Issues s .txcommit ∧ s.ackin.len = 1#2 ∧ s.ackin.byte0 = seqByte s.seq.txSeq ∧ s.seq.retx = false)))

/-- R202: an out-of-range write to TXLEN, RXLEN or ACKIN raises ERR_LEN and the register keeps its value in every
field; any other write sets it; no command raises ERR_LEN. -/
def Obligations.LengthWritesAreRangeChecked : Prop :=
  (∀ (s : State) (d : Word) (rest : List HostEvent), WritesNext s 0x0008#16 d rest →
    step s = .next (if maxPacket s < (d.extractLsb' 0 16).toNat
      then { s with pending := rest, rdata := none, status := { s.status with errLen := true } }
      else { s with pending := rest, rdata := none, txplen := d.extractLsb' 0 16 })) ∧
  (∀ (s : State) (d : Word) (rest : List HostEvent), WritesNext s 0x000C#16 d rest →
    step s = .next (if maxPacket s + 3 < (d.extractLsb' 0 16).toNat
      then { s with pending := rest, rdata := none, status := { s.status with errLen := true } }
      else { s with pending := rest, rdata := none, rxflen := d.extractLsb' 0 16 })) ∧
  (∀ (s : State) (d : Word) (rest : List HostEvent), WritesNext s 0x0010#16 d rest →
    step s = .next (if d.extractLsb' 16 2 = 3#2
      then { s with pending := rest, rdata := none, status := { s.status with errLen := true } }
      else { s with
        pending := rest, rdata := none
        ackin := ⟨d.extractLsb' 0 8, d.extractLsb' 8 8, d.extractLsb' 16 2⟩ })) ∧
  (∀ (s t : State) (i : Instr), exec i s = .next t → t.status.errLen = s.status.errLen)

/-- 10_state.md R31 to R33, 40_host_port.md R101: a write to SEQ sets TX_SEQ, RX_EXP and RETX from bits 2:0 and
changes nothing else. -/
def Obligations.SeqWriteSetsThreeBits : Prop :=
  ∀ (s : State) (d : Word) (rest : List HostEvent), WritesNext s 0x0018#16 d rest →
    ∃ t, step s = .next t ∧ t = { s with pending := rest, rdata := none, seq := t.seq } ∧
      readReg t .seq = d &&& 0x00000007#32

/-- 10_state.md R42, R37, R41: a write to one half of SAMPLE or INITTMO changes only that half. -/
def Obligations.HalfWritesChangeOneHalf : Prop :=
  ∀ (s : State) (d : Word) (rest : List HostEvent),
    (WritesNext s 0x0028#16 d rest → ∃ t, step s = .next t ∧
      t = { s with pending := rest, rdata := none, sample := t.sample } ∧
      t.sample.extractLsb' 0 32 = d ∧ t.sample.extractLsb' 32 32 = s.sample.extractLsb' 32 32) ∧
    (WritesNext s 0x002C#16 d rest → ∃ t, step s = .next t ∧
      t = { s with pending := rest, rdata := none, sample := t.sample } ∧
      t.sample.extractLsb' 32 32 = d ∧ t.sample.extractLsb' 0 32 = s.sample.extractLsb' 0 32) ∧
    (WritesNext s 0x0048#16 d rest → ∃ t, step s = .next t ∧
      t = { s with pending := rest, rdata := none, initTmo := t.initTmo } ∧
      t.initTmo.extractLsb' 0 32 = d ∧ t.initTmo.extractLsb' 32 32 = s.initTmo.extractLsb' 32 32) ∧
    (WritesNext s 0x004C#16 d rest → ∃ t, step s = .next t ∧
      t = { s with pending := rest, rdata := none, initTmo := t.initTmo } ∧
      t.initTmo.extractLsb' 32 32 = d ∧ t.initTmo.extractLsb' 0 32 = s.initTmo.extractLsb' 0 32)

/-- R44: a write to a read-only register changes nothing and raises no error; read-only fields and reserved bits of
the written word do not matter; TXLEN and RXLEN still take their RW fields from the same write. -/
def Obligations.ReadOnlyBitsIgnoreWrites : Prop :=
  (∀ (s : State) (a : Addr) (d : Word) (rest : List HostEvent), WritesNext s a d rest →
    a ∈ [0x0014#16, 0x001C#16, 0x0020#16, 0x0024#16, 0x0030#16, 0x0034#16, 0x0038#16, 0x003C#16, 0x0040#16, 0x0044#16] →
    step s = .next { s with pending := rest, rdata := none }) ∧
  (∀ (s s' : State) (a : Addr) (d d' : Word) (rest : List HostEvent),
    WritesNext s a d rest → s' = { s with pending := .wr a d' :: rest } →
    (a = 0x0004#16 ∧ d.extractLsb' 16 4 = d'.extractLsb' 16 4) ∨
    ((a = 0x0008#16 ∨ a = 0x000C#16) ∧ d.extractLsb' 0 16 = d'.extractLsb' 0 16) ∨
    (a = 0x0010#16 ∧ d.extractLsb' 0 18 = d'.extractLsb' 0 18) ∨
    (a = 0x0018#16 ∧ d.extractLsb' 0 3 = d'.extractLsb' 0 3) →
    step s = step s') ∧
  (∀ (s : State) (d : Word) (rest : List HostEvent), WritesNext s 0x0008#16 d rest →
    (d.extractLsb' 0 16).toNat ≤ maxPacket s → ∃ t, step s = .next t ∧ t.txplen = d.extractLsb' 0 16) ∧
  (∀ (s : State) (d : Word) (rest : List HostEvent), WritesNext s 0x000C#16 d rest →
    (d.extractLsb' 0 16).toNat ≤ maxPacket s + 3 → ∃ t, step s = .next t ∧ t.rxflen = d.extractLsb' 0 16)

/-- 10_state.md R38, R39, R40: the host cannot write EST, DEV or TMO: only RTTRST, RTTUPD, TXCOMMIT and reset change
them. -/
def Obligations.RttStateChangedOnlyByRttCommands : Prop :=
  ∀ s t : State, step s = .next t → t.est ≠ s.est ∨ t.dev ≠ s.dev ∨ t.tmo ≠ s.tmo →
    AssertsReset s ∨ Issues s .rttrst ∨ Issues s .rttupd ∨ Issues s .txcommit

/-- 30_encoding.md R90: LDTX writes the words of TXBUF from offset 0 to the one that holds the payload's last byte,
with the payload at offsets 3 on and 0x00 in every other lane, and sets TXPLEN; LDRX writes the words of RXBUF that hold
the frame, with 0x00 in the lanes after it, and sets RXFLEN. Lanes at and above BUF_SIZE are ignored (20_memory.md R64),
every other byte keeps its value, and neither raises an error nor touches another register. That the expansion is served
one event a step is the model's choice (log entry 5). -/
def Obligations.LoadPseudosFillTheBuffers : Prop :=
  (∀ (s : State) (p : List Byte), s.resetIn = false → p.length ≤ maxPacket s →
    s.pending = expandPseudo (.ldtx p) →
    ∃ t, Sys2Proof.core.run (expandPseudo (.ldtx p)).length s = .next t ∧ txPayload t = p ∧
      (∀ o, txByte t o = if o < 4 * ((p.length + 2) / 4 + 1) ∧ o < bufSize s
        then (if 3 ≤ o then p.getD (o - 3) 0x00#8 else 0x00#8) else txByte s o) ∧
      t = { s with pending := [], rdata := none, txbuf := t.txbuf, txplen := BitVec.ofNat 16 p.length }) ∧
  (∀ (s : State) (f : List Byte), s.resetIn = false → f.length ≤ maxPacket s + 3 →
    s.pending = expandPseudo (.ldrx f) →
    ∃ t, Sys2Proof.core.run (expandPseudo (.ldrx f)).length s = .next t ∧ rxFrame t = f ∧
      (∀ o, rxByte t o = if o < 4 * ((f.length + 3) / 4) ∧ o < bufSize s then f.getD o 0x00#8 else rxByte s o) ∧
      t = { s with pending := [], rdata := none, rxbuf := t.rxbuf, rxflen := BitVec.ofNat 16 f.length })

/-! ### The commands -/

/-- R103: NOP is the word 0x00000000; only CMD.LAST <- 0x00000000 happens. -/
def Obligations.NopOnlyStoresItsWord : Prop :=
  encode .nop = 0x00000000#32 ∧ (∀ s : State, exec .nop s = .next s) ∧
  (∀ (s : State) (rest : List HostEvent), WritesNext s 0x0000#16 0x00000000#32 rest →
    step s = .next { s with pending := rest, rdata := none, cmdLast := 0x00000000#32 })

/-- R123: ENC writes the header of the frame for TX_SEQ, the checksum field big-endian, and CSUM; the payload, the
bytes from offset L + 3 up, STATUS and everything else are unchanged; ENC twice writes the same bytes. -/
def Obligations.EncWritesTheFrameHeader : Prop :=
  decode 0x00001000#32 = .ok .enc ∧
  ∀ s : State, ∃ t, exec .enc s = .next t ∧
    t.csum = csum16 (seqByte s.seq.txSeq :: (List.range s.txplen.toNat).map fun j => txByte s (3 + j)) ∧
    txByte t 0 = seqByte s.seq.txSeq ∧ txByte t 1 = t.csum.extractLsb' 8 8 ∧ txByte t 2 = t.csum.extractLsb' 0 8 ∧
    (∀ o, 3 ≤ o → txByte t o = txByte s o) ∧
    t = { s with txbuf := t.txbuf, csum := t.csum } ∧
    txFrame t = seqByte s.seq.txSeq :: t.csum.extractLsb' 8 8 :: t.csum.extractLsb' 0 8 :: txPayload s ∧
    exec .enc t = .next t

/-- R124: ENCI does what ENC does with the immediate bit in place of TX_SEQ, which it neither reads nor changes;
ENCI #b with b = TX_SEQ writes exactly what ENC writes. -/
def Obligations.EnciWritesTheFrameHeader : Prop :=
  decode 0x00001002#32 = .ok (.enci false) ∧ decode 0x00001003#32 = .ok (.enci true) ∧
  (∀ (s : State) (b : Bool), ∃ t, exec (.enci b) s = .next t ∧
    t.csum = csum16 (seqByte b :: (List.range s.txplen.toNat).map fun j => txByte s (3 + j)) ∧
    txByte t 0 = seqByte b ∧ txByte t 1 = t.csum.extractLsb' 8 8 ∧ txByte t 2 = t.csum.extractLsb' 0 8 ∧
    (∀ o, 3 ≤ o → txByte t o = txByte s o) ∧
    t = { s with txbuf := t.txbuf, csum := t.csum } ∧
    txFrame t = seqByte b :: t.csum.extractLsb' 8 8 :: t.csum.extractLsb' 0 8 :: txPayload s ∧
    exec (.enci b) t = .next t ∧
    exec (.enci b) { s with seq := { s.seq with txSeq := !s.seq.txSeq } } =
      .next { t with seq := { s.seq with txSeq := !s.seq.txSeq } }) ∧
  (∀ s : State, exec (.enci s.seq.txSeq) s = exec .enc s)

/-- R125: VERIFY writes CSUM, all six flags and the whole of RXHDR from the frame F = RXBUF[0..n), n = RXFLEN, and
RX_EXP; nothing else changes. -/
def Obligations.VerifyChecksAndDecodesTheFrame : Prop :=
  decode 0x00001100#32 = .ok .verify ∧
  ∀ s : State, ∃ t, exec .verify s = .next t ∧
    let n := s.rxflen.toNat
    let v := csum16 ((List.range n).map (rxByte s))
    t = { s with
      csum := v
      status := { s.status with
        corrupt := decide (v ≠ 0x0000#16), short := decide (n < 3), empty := decide (n = 0)
        seqMatch := decide (1 ≤ n ∧ rxByte s 0 = seqByte s.seq.rxExp)
        frameOk := decide (3 ≤ n ∧ v = 0x0000#16)
        accept := decide (3 ≤ n ∧ v = 0x0000#16 ∧ 1 ≤ n ∧ rxByte s 0 = seqByte s.seq.rxExp) }
      rxhdr := {
        rxSeq := if 1 ≤ n then rxByte s 0 else 0x00#8
        rxCsum := if 3 ≤ n then (rxByte s 1).setWidth 16 <<< 8 ||| (rxByte s 2).setWidth 16 else 0x0000#16
        seqV := decide (1 ≤ n), hdrV := decide (3 ≤ n) } }

/-- R126 and R127: ACKENC sends the received sequence byte, if there was one; ACKENCI sends the byte of its bit. -/
def Obligations.AckencAndAckenciSetTheAck : Prop :=
  decode 0x00001200#32 = .ok .ackenc ∧ decode 0x00001202#32 = .ok (.ackenci false) ∧
  decode 0x00001203#32 = .ok (.ackenci true) ∧
  ∀ s : State,
    (∃ t, exec .ackenc s = .next t ∧ t = { s with ackout := t.ackout } ∧
      readReg t .ackout = 0#23 ++ BitVec.ofBool s.rxhdr.seqV ++ s.rxhdr.rxSeq) ∧
    (∃ t, exec (.ackenci false) s = .next t ∧ t = { s with ackout := t.ackout } ∧
      readReg t .ackout = 0x00000100#32) ∧
    (∃ t, exec (.ackenci true) s = .next t ∧ t = { s with ackout := t.ackout } ∧
      readReg t .ackout = 0x00000101#32)

/-- R128 and R129: ACK_MATCH is 1 iff exactly one byte was received and it equals the one-byte ack of the compared
bit, TX_SEQ or the immediate one; ACKIN1 and, for ACKCHKI, TX_SEQ do not matter; nothing else changes. -/
def Obligations.AckchkAndAckchkiCompareTheAck : Prop :=
  decode 0x00001300#32 = .ok .ackchk ∧ decode 0x00001302#32 = .ok (.ackchki false) ∧
  decode 0x00001303#32 = .ok (.ackchki true) ∧
  ∀ s : State,
    (∃ t, exec .ackchk s = .next t ∧ t = { s with status := { s.status with ackMatch := t.status.ackMatch } } ∧
      (t.status.ackMatch = true ↔ s.ackin.len = 1#2 ∧ s.ackin.byte0.toNat = s.seq.txSeq.toNat)) ∧
    (∀ b : Bool, ∃ t, exec (.ackchki b) s = .next t ∧
      t = { s with status := { s.status with ackMatch := t.status.ackMatch } } ∧
      (t.status.ackMatch = true ↔ s.ackin.len = 1#2 ∧ s.ackin.byte0.toNat = b.toNat))

/-- R160, R161, R162: TXFLIP and RXFLIP flip one bit each, and twice restores it; SEQRST clears both and keeps RETX;
nothing else changes. -/
def Obligations.SequenceCommandsChangeTheirBits : Prop :=
  decode 0x00002000#32 = .ok .txflip ∧ decode 0x00002100#32 = .ok .rxflip ∧ decode 0x00002200#32 = .ok .seqrst ∧
  ∀ s : State,
    (∃ t, exec .txflip s = .next t ∧ t = { s with seq := t.seq } ∧
      readReg t .seq = readReg s .seq ^^^ 0x00000001#32 ∧ exec .txflip t = .next s) ∧
    (∃ t, exec .rxflip s = .next t ∧ t = { s with seq := t.seq } ∧
      readReg t .seq = readReg s .seq ^^^ 0x00000002#32 ∧ exec .rxflip t = .next s) ∧
    (∃ t, exec .seqrst s = .next t ∧ t = { s with seq := t.seq } ∧
      readReg t .seq = readReg s .seq &&& 0x00000004#32)

/-- R173: RTTRST sets EST and DEV to +0.0, copies INITTMO to TMO as it is and clears RETX; nothing else changes. -/
def Obligations.RttrstStartsATransfer : Prop :=
  decode 0x00003000#32 = .ok .rttrst ∧
  ∀ s : State, ∃ t, exec .rttrst s = .next t ∧
    t = { s with est := 0x0000000000000000#64, dev := 0x0000000000000000#64, tmo := s.initTmo, seq := t.seq } ∧
    readReg t .seq = readReg s .seq &&& 0x00000003#32

/-- R175: RETXMARK sets RETX and changes nothing else; again changes nothing. -/
def Obligations.RetxmarkSetsRetx : Prop :=
  decode 0x00003200#32 = .ok .retxmark ∧
  ∀ s : State, ∃ t, exec .retxmark s = .next t ∧ t = { s with seq := t.seq } ∧
    readReg t .seq = readReg s .seq ||| 0x00000004#32 ∧ exec .retxmark t = .next t

/-- 43_rtt.md R170, R172, R174: RTTUPD with a valid sample performs the update of R170, whatever RETX is; with an
invalid one it raises ERR_RTT, clears RTT_UPDATED and keeps EST, DEV and TMO. -/
def Obligations.RttupdFeedsOneSample : Prop :=
  decode 0x00003100#32 = .ok .rttupd ∧
  ∀ s : State,
    (ValidSampleBits s.sample →
      let e := fadd (fmul 0x3FEC000000000000#64 s.est) (fmul 0x3FC0000000000000#64 s.sample)
      let d := fadd (fmul 0x3FE8000000000000#64 s.dev) (fmul 0x3FD0000000000000#64 (fabs (fsub s.sample e)))
      exec .rttupd s = .next { s with
        est := e, dev := d, tmo := fadd e (fmul 0x4010000000000000#64 d)
        status := { s.status with rttUpdated := true } }) ∧
    (¬ValidSampleBits s.sample →
      exec .rttupd s = .next { s with status := { s.status with errRtt := true, rttUpdated := false } })

/-- 43_rtt.md R174: the worked example of RTTUPD from the estimator's starting state, with SAMPLE = 1.0. -/
def Obligations.RttupdWorkedExample : Prop :=
  ∀ s : State, s.est = 0x0000000000000000#64 → s.dev = 0x0000000000000000#64 → s.sample = 0x3FF0000000000000#64 →
    ∃ t, exec .rttupd s = .next t ∧ t.est = 0x3FC0000000000000#64 ∧ t.dev = 0x3FCC000000000000#64 ∧
      t.tmo = 0x3FF0000000000000#64 ∧ t.status.rttUpdated = true ∧ t.status.errRtt = s.status.errRtt

/-- 44_commit.md R190: the sender's response step. A matching ack is accepted: TX_SEQ flips, RETX is cleared,
ADVANCED = 1, and the sample is fed exactly as RTTUPD feeds it if RETX was 0, not at all if it was 1 (Karn). Any
other response sets RETX and clears ADVANCED and RTT_UPDATED. -/
def Obligations.TxcommitIsTheResponseStep : Prop :=
  decode 0x00004000#32 = .ok .txcommit ∧
  ∀ s : State,
    let m := s.ackin.len = 1#2 ∧ s.ackin.byte0 = seqByte s.seq.txSeq
    (m → s.seq.retx = false → ∃ u, exec .rttupd s = .next u ∧
      exec .txcommit s = .next { u with
        seq := { s.seq with txSeq := !s.seq.txSeq }
        status := { u.status with ackMatch := true, advanced := true } }) ∧
    (m → s.seq.retx = true →
      exec .txcommit s = .next { s with
        seq := { s.seq with txSeq := !s.seq.txSeq, retx := false }
        status := { s.status with ackMatch := true, advanced := true, rttUpdated := false } }) ∧
    (¬m →
      exec .txcommit s = .next { s with
        seq := { s.seq with retx := true }
        status := { s.status with ackMatch := false, advanced := false, rttUpdated := false } })

/-- 44_commit.md R191: the receiver's frame step: VERIFY in full, then the ack by its three cases, then RX_EXP flips
iff ACCEPT. -/
def Obligations.RxcommitIsTheFrameStep : Prop :=
  decode 0x00004100#32 = .ok .rxcommit ∧
  ∀ s : State, ∃ v t, exec .verify s = .next v ∧ exec .rxcommit s = .next t ∧
    t = { v with
      seq := { s.seq with rxExp := if v.status.accept then !s.seq.rxExp else s.seq.rxExp }
      ackout := t.ackout } ∧
    (s.rxflen.toNat = 0 → t.ackout = ⟨0x00#8, false⟩) ∧
    (s.rxflen.toNat ≠ 0 → v.status.frameOk = false → s.cfg.rxCorruptAck = .lastAccepted →
      t.ackout = ⟨if s.seq.rxExp then 0x00#8 else 0x01#8, true⟩) ∧
    (s.rxflen.toNat ≠ 0 → v.status.frameOk = true ∨ s.cfg.rxCorruptAck = .received →
      t.ackout = ⟨rxByte s 0, true⟩)

/-! ### The checksum -/

/-- R120: fold16 is the loop of its rule, congruent to its argument modulo 65535, 0 exactly for 0, and within
1..0xFFFF otherwise. -/
def Obligations.FoldIsTheEndAroundCarryLoop : Prop :=
  (∀ t : Nat, t ≤ 0xFFFF → fold16 t = t) ∧
  (∀ t : Nat, 0xFFFF < t → fold16 t = fold16 ((t &&& 0xFFFF) + (t >>> 16))) ∧
  (∀ t : Nat, fold16 t ≡ t [MOD 65535]) ∧
  (∀ t : Nat, fold16 t = 0 ↔ t = 0) ∧
  (∀ t : Nat, 0 < t → 1 ≤ fold16 t ∧ fold16 t ≤ 0xFFFF)

/-- R121: csum16 of any byte sequence, by its pairs: the first byte of a pair is the low byte, an odd length is padded
with 0x00, and the result is the complement of the folded sum; csum16 of the empty sequence is 0xFFFF. -/
def Obligations.ChecksumIsTheComplementedPairSum : Prop :=
  csum16 [] = 0xFFFF#16 ∧
  ∀ s : List Byte,
    let p := if s.length % 2 = 0 then s else s ++ [0x00#8]
    let t := ((List.range (p.length / 2)).map fun k =>
      (p.getD (2 * k) 0x00#8).toNat ||| ((p.getD (2 * k + 1) 0x00#8).toNat <<< 8)).sum
    (csum16 s).toNat = 0xFFFF - fold16 t

/-- R130: the words may be added in any order, folding as one goes. -/
def Obligations.AccumulationOrderDoesNotMatter : Prop :=
  ∀ (f : List Byte) (ws : List Nat), ws.Perm (pairWords f) → ws.foldl accumulate 0 = fold16 (wordSum f)

/-- R131: for every sequence bit and every payload the encoded frame has csum16 0x0000, and VERIFY of the frame that
ENCI built gives CORRUPT = 0 and FRAME_OK = 1. -/
def Obligations.EncodedFramesVerify : Prop :=
  (∀ (b : Bool) (p : List Byte), csum16 (seqByte b :: (csum16 (seqByte b :: p)).extractLsb' 8 8 ::
    (csum16 (seqByte b :: p)).extractLsb' 0 8 :: p) = 0x0000#16) ∧
  (∀ (s t r : State) (b : Bool), exec (.enci b) s = .next t → rxFrame r = txFrame t →
    ∃ u, exec .verify r = .next u ∧ u.status.corrupt = false ∧ u.status.frameOk = true)

/-- 41_codec.md R132 (a): every single-bit change to a frame that passes makes it fail. -/
def Obligations.SingleBitFlipIsDetected : Prop :=
  ∀ (f : List Byte) (i j : Nat), i < f.length → j < 8 → csum16 f = 0x0000#16 →
    csum16 (f.set i (f.getD i 0x00#8 ^^^ (0x01#8 <<< j))) ≠ 0x0000#16

/-- 41_codec.md R132 (b) and (c): a change that keeps the sum congruent modulo 65535 and positive is not detected,
among them an aligned word going from 0x0000 to 0xFFFF, two bytes of the same parity swapping places and 0x00 bytes
appended; a frame of 0x00 bytes only is corrupt. -/
def Obligations.ChecksumBlindSpots : Prop :=
  (∀ f g : List Byte, csum16 f = 0x0000#16 → 0 < wordSum g → wordSum g ≡ wordSum f [MOD 65535] →
    csum16 g = 0x0000#16) ∧
  (∀ f g : List Byte, f.length % 2 = 0 → csum16 (f ++ [0x00#8, 0x00#8] ++ g) = 0x0000#16 →
    csum16 (f ++ [0xFF#8, 0xFF#8] ++ g) = 0x0000#16) ∧
  (∀ (f : List Byte) (i j : Nat), i < f.length → j < f.length → i % 2 = j % 2 →
    csum16 ((f.set i (f.getD j 0x00#8)).set j (f.getD i 0x00#8)) = csum16 f) ∧
  (∀ (f : List Byte) (k : Nat), csum16 (f ++ List.replicate k 0x00#8) = csum16 f) ∧
  (∀ n : Nat, csum16 (List.replicate n 0x00#8) = 0xFFFF#16)

/-! ### Binary64 -/

/-- 00_scope.md R11: fadd and fsub of finite values round the exact result once, to nearest, ties to even; an
overflow gives the infinity of the result's sign (43_rtt.md R177). Where overflow begins, 2^1024 - 2^970, and that fsub is
the sum with the negated operand are taken from IEEE 754-2008 (log entry 8, PRESUMED). -/
def Obligations.SumsAreRoundedOnceToNearest : Prop :=
  ∀ a b : Dword, b64IsFinite a = true → b64IsFinite b = true →
    (|b64Value a + b64Value b| < overflowBound → IsNearestEven (b64Value a + b64Value b) (fadd a b)) ∧
    (overflowBound ≤ b64Value a + b64Value b → fadd a b = 0x7FF0000000000000#64) ∧
    (b64Value a + b64Value b ≤ -overflowBound → fadd a b = 0xFFF0000000000000#64) ∧
    (|b64Value a - b64Value b| < overflowBound → IsNearestEven (b64Value a - b64Value b) (fsub a b)) ∧
    (overflowBound ≤ b64Value a - b64Value b → fsub a b = 0x7FF0000000000000#64) ∧
    (b64Value a - b64Value b ≤ -overflowBound → fsub a b = 0xFFF0000000000000#64)

/-- 00_scope.md R11: fmul of finite values rounds the exact product once, to nearest, ties to even, with the sign
of the product; an overflow gives the infinity of that sign (43_rtt.md R177). Where overflow begins, 2^1024 - 2^970, is
taken from IEEE 754-2008 (log entry 8, PRESUMED). -/
def Obligations.ProductsAreRoundedOnceToNearest : Prop :=
  ∀ a b : Dword, b64IsFinite a = true → b64IsFinite b = true →
    (|b64Value a * b64Value b| < overflowBound → IsNearestEven (b64Value a * b64Value b) (fmul a b)) ∧
    (overflowBound ≤ |b64Value a * b64Value b| → b64IsInf (fmul a b) = true) ∧
    b64Neg (fmul a b) = (b64Neg a != b64Neg b)

/-- 43_rtt.md R171: the constants of the update are the encodings of 0.875, 0.125, 0.75, 0.25, 4.0 and +0.0. -/
def Obligations.RttConstantsHaveTheirValues : Prop :=
  b64Value 0x3FEC000000000000#64 = 7 / 8 ∧ b64Value 0x3FC0000000000000#64 = 1 / 8 ∧
  b64Value 0x3FE8000000000000#64 = 3 / 4 ∧ b64Value 0x3FD0000000000000#64 = 1 / 4 ∧
  b64Value 0x4010000000000000#64 = 4 ∧ b64Value 0x0000000000000000#64 = 0

/-- 43_rtt.md R177: from EST and DEV that are +0.0 or positive, a valid sample gives results that are +0.0 or positive,
none of them a NaN. -/
def Obligations.RttResultsStayNonNegative : Prop :=
  ∀ s : State, NonNegative s.est → NonNegative s.dev → ValidSampleBits s.sample →
    ∃ t, exec .rttupd s = .next t ∧ NonNegative t.est ∧ NonNegative t.dev ∧ NonNegative t.tmo

/-! ### The protocol -/

/-- R192: RXCOMMIT of the same valid frame twice in a row accepts it once, flips RX_EXP once and acks it both times
with the frame's sequence byte, under either value of RX_CORRUPT_ACK. -/
def Obligations.DuplicateFrameIsDeliveredOnce : Prop :=
  ∀ s : State, 3 ≤ s.rxflen.toNat → csum16 (rxFrame s) = 0x0000#16 → rxByte s 0 = seqByte s.seq.rxExp →
    ∃ t u, exec .rxcommit s = .next t ∧ exec .rxcommit t = .next u ∧
      t.status.accept = true ∧ t.seq.rxExp = (!s.seq.rxExp) ∧ t.ackout = ⟨rxByte s 0, true⟩ ∧
      u.status.seqMatch = false ∧ u.status.accept = false ∧ u.seq.rxExp = t.seq.rxExp ∧ u.ackout = ⟨rxByte s 0, true⟩

/-- 44_commit.md R193: under LAST_ACCEPTED a non-empty frame that fails the integrity or length check is acked with a
byte that a sender whose current bit is the receiver's expected bit does not accept. That premise on the two bits is the
model's reading of the rule (log entry 12, DEDUCED). -/
def Obligations.LastAcceptedAckIsRejected : Prop :=
  ∀ r p : State, r.cfg.rxCorruptAck = .lastAccepted → 1 ≤ r.rxflen.toNat →
    ¬(3 ≤ r.rxflen.toNat ∧ csum16 (rxFrame r) = 0x0000#16) → p.seq.txSeq = r.seq.rxExp →
    ∃ t, exec .rxcommit r = .next t ∧ t.ackout.valid = true ∧ t.seq.rxExp = r.seq.rxExp ∧
      (p.ackin.len = 1#2 → p.ackin.byte0 = t.ackout.byte →
        ∃ q, exec .txcommit p = .next q ∧ q.status.advanced = false ∧ q.seq.txSeq = p.seq.txSeq ∧ q.seq.retx = true)

/-- 44_commit.md R193: the counterexample under RECEIVED: the frame 00 BE FF 41 with its payload bit 0 flipped is
corrupt, is acked with 0x00, and a sender with TX_SEQ = 0 advances on that ack. -/
def Obligations.ReceivedAckLosesTheChunk : Prop :=
  ∀ r p : State, r.cfg.rxCorruptAck = .received → rxFrame r = [0x00#8, 0xBE#8, 0xFF#8, 0x40#8] →
    r.seq.rxExp = false → p.seq.txSeq = false →
    ∃ t, exec .rxcommit r = .next t ∧ t.status.corrupt = true ∧ t.status.accept = false ∧
      t.ackout = ⟨0x00#8, true⟩ ∧
      (p.ackin.len = 1#2 → p.ackin.byte0 = t.ackout.byte →
        ∃ q, exec .txcommit p = .next q ∧ q.status.advanced = true ∧ q.seq.txSeq = true)

/-- R194: TXCOMMIT with a non-matching ACKIN changes neither TXBUF nor TXPLEN, so the frame is the same byte for
byte. -/
def Obligations.RejectedAckKeepsTheFrame : Prop :=
  ∀ s : State, ¬(s.ackin.len = 1#2 ∧ s.ackin.byte0 = seqByte s.seq.txSeq) →
    ∃ t, exec .txcommit s = .next t ∧ t.status.advanced = false ∧ (∀ o, txByte t o = txByte s o) ∧
      t.txplen = s.txplen ∧ txFrame t = txFrame s

/-- 42_sequence.md R163: from TX_SEQ = 0, with TX_SEQ changed only through TXCOMMIT, TX_SEQ at the TXCOMMITs that
report ADVANCED = 1 is 0, 1, 0, 1, ...; and from RX_EXP = 0, with RX_EXP changed only through RXCOMMIT, so are the
sequence bytes of the frames RXCOMMIT accepts. -/
def Obligations.AcceptedBitsAlternate : Prop :=
  (∀ (n : Nat) (s : State), s.seq.txSeq = false → (∀ e ∈ s.pending, OnlyTxcommitFlips e) →
    ∀ k b, (advancedBits n s)[k]? = some b → b = decide (k % 2 = 1)) ∧
  (∀ (n : Nat) (s : State), s.seq.rxExp = false → (∀ e ∈ s.pending, OnlyRxcommitFlips e) →
    ∀ k b, (acceptedBytes n s)[k]? = some b → b = seqByte (decide (k % 2 = 1)))

/-- 10_state.md R45: no command reads a STATUS bit as an input: two states that differ only in STATUS give next states
that differ only in STATUS, and each bit of STATUS is the same in both (the command wrote it) or in each the one its own
start state had (the command kept it). -/
def Obligations.NoCommandReadsStatus : Prop :=
  ∀ (i : Instr) (s : State) (st : Status), ∃ t t', exec i s = .next t ∧ exec i { s with status := st } = .next t' ∧
    t' = { t with status := t'.status } ∧
    ∀ bit ∈ statusBits, bit t.status = bit t'.status ∨ (bit t.status = bit s.status ∧ bit t'.status = bit st)

/-- 60_exceptions.md R211: each command touches only the side its rule names, and what it does there depends on that
side alone. -/
def Obligations.SenderAndReceiverSidesAreIndependent : Prop :=
  (∀ i ∈ senderCommands, ∀ s s' : State, SenderSideEq s s' →
    ∃ t t', exec i s = .next t ∧ exec i s' = .next t' ∧ ReceiverSideEq s t ∧ SenderSideEq t t') ∧
  (∀ i ∈ receiverCommands, ∀ s s' : State, ReceiverSideEq s s' →
    ∃ t t', exec i s = .next t ∧ exec i s' = .next t' ∧ SenderSideEq s t ∧ ReceiverSideEq t t')
end

