-- ==== Sys2Proof/Laws/Binary64.lean ====
section
/-! SUPPORT. First facts of the binary64 encodings: the parts of a packed value. -/

namespace Sys2Proof.Machine

/-- Rounding never goes beyond the bits of an infinity. -/
theorem b64Round_le (n k : Nat) : b64Round n k ≤ b64InfBits := Nat.min_le_right _ _

theorem b64Pack_toNat (neg : Bool) (bits : Nat) :
    (b64Pack neg bits).toNat = neg.toNat * 2 ^ 63 + bits % 2 ^ 63 := by
  have h : (BitVec.ofNat 63 bits).toNat < 2 ^ 63 := (BitVec.ofNat 63 bits).isLt
  rw [b64Pack, BitVec.toNat_append, Nat.shiftLeft_eq, Nat.mul_comm, ← Nat.two_pow_add_eq_or_of_lt h, BitVec.toNat_ofNat]
  cases neg <;> simp

@[simp] theorem fabs_toNat (a : Dword) : (fabs a).toNat = a.toNat % 2 ^ 63 := by
  rw [fabs, BitVec.toNat_append]; simp

end Sys2Proof.Machine
end

