-- ==== Sys2Proof/Laws/Checksum.lean ====
section
/-! SUPPORT. First facts of the checksum: the words of a frame and the loop of R120. -/

namespace Sys2Proof.Machine

@[simp] theorem wordSum_nil : wordSum [] = 0 := rfl

@[simp] theorem wordSum_single (a : Byte) : wordSum [a] = a.toNat := by simp [wordSum, pairWords]

@[simp] theorem wordSum_cons_cons (a b : Byte) (f : List Byte) :
    wordSum (a :: b :: f) = a.toNat + 256 * b.toNat + wordSum f := by simp [wordSum, pairWords]

/-- One turn of the loop makes an argument above 0xFFFF smaller and keeps its residue modulo 65535. -/
theorem foldTurn_lt {t : Nat} (h : 0xFFFF < t) : t % 0x10000 + t / 0x10000 < t := by omega

theorem foldTurn_modEq (t : Nat) : t % 0x10000 + t / 0x10000 ≡ t [MOD 65535] := by
  have h := Nat.mod_add_div t 0x10000
  unfold Nat.ModEq; omega

/-- More turns than the argument's value change nothing: the loop has ended. -/
theorem foldTurns_enough (f : Nat) : ∀ {g t : Nat}, t ≤ f → t ≤ g → foldTurns f t = foldTurns g t := by
  induction f with
  | zero =>
    intro g t hf _
    obtain rfl : t = 0 := by omega
    cases g <;> simp [foldTurns]
  | succ f ih =>
    intro g t hf hg
    cases g with
    | zero => obtain rfl : t = 0 := by omega
              simp [foldTurns]
    | succ g =>
      simp only [foldTurns]
      split
      · next h => have := foldTurn_lt h; exact ih (by omega) (by omega)
      · rfl

theorem csum16_toNat (f : List Byte) : (csum16 f).toNat = 0xFFFF - fold16 (wordSum f) % 0x10000 := by
  simp [csum16]

end Sys2Proof.Machine
end

