-- ==== Sys2Proof/Laws/Memory.lean ====
section
/-! SUPPORT. The memory of a buffer: read after write, and the canonical form that every write keeps. -/

namespace Sys2Proof.Machine

@[simp] theorem Memory.byteAt_nil (x : Nat) : Memory.byteAt [] x = none := rfl

/-- A read after a write: the written offset gives the written byte, every other offset reads as before. -/
theorem Memory.byteAt_put (m : Memory) (x y : Nat) (v : Byte) :
    (m.put x v).byteAt y = if y = x then some v else m.byteAt y := by
  induction m with
  | nil => simp [Memory.put, Memory.byteAt, eq_comm]
  | cons c rest ih =>
    obtain ⟨o, b⟩ := c
    simp only [Memory.put]
    split
    · simp [Memory.byteAt, eq_comm]
    · split
      · next h =>
        subst h
        by_cases hy : y = x
        · simp [Memory.byteAt, hy]
        · simp [Memory.byteAt, hy, Ne.symm hy]
      · next h =>
        simp only [Memory.byteAt, ih]
        by_cases hy : o = y
        · subst hy; simp [Ne.symm h]
        · simp [hy]

@[simp] theorem Memory.byteAt_put_same (m : Memory) (x : Nat) (v : Byte) : (m.put x v).byteAt x = some v := by
  simp [Memory.byteAt_put]

theorem Memory.byteAt_put_other (m : Memory) {x y : Nat} (v : Byte) (h : y ≠ x) :
    (m.put x v).byteAt y = m.byteAt y := by
  simp [Memory.byteAt_put, h]

@[simp] theorem Memory.wf_nil (n : Nat) : Memory.wf n [] = true := rfl

theorem Memory.wf_cons (n o : Nat) (b : Byte) (rest : Memory) :
    Memory.wf n ((o, b) :: rest) = true ↔ o < n ∧ (∀ c ∈ rest, o < c.1) ∧ Memory.wf n rest = true := by
  simp [Memory.wf, and_assoc]

/-- The offsets after a write are the offsets before it and the written one. -/
theorem Memory.mem_put {m : Memory} {x : Nat} {v : Byte} {c : Host.Cell} (h : c ∈ m.put x v) : c = (x, v) ∨ c ∈ m := by
  induction m with
  | nil => simpa [Memory.put] using h
  | cons d rest ih =>
    obtain ⟨o, b⟩ := d
    simp only [Memory.put] at h
    split at h
    · simpa using h
    · split at h
      · next hx => subst hx; rcases List.mem_cons.mp h with h | h <;> simp [h]
      · rcases List.mem_cons.mp h with h | h
        · simp [h]
        · rcases ih h with h | h <;> simp [h]

/-- Every write of a byte that exists keeps the canonical form. -/
theorem Memory.wf_put {n : Nat} {m : Memory} {x : Nat} {v : Byte} (hm : m.wf n = true) (hx : x < n) :
    (m.put x v).wf n = true := by
  induction m with
  | nil => simp [Memory.put, Memory.wf, hx]
  | cons c rest ih =>
    obtain ⟨o, b⟩ := c
    obtain ⟨ho, hrest, hwf⟩ := (Memory.wf_cons ..).mp hm
    simp only [Memory.put]
    split
    · next hlt =>
      refine (Memory.wf_cons ..).mpr ⟨hx, fun c hc => ?_, hm⟩
      rcases List.mem_cons.mp hc with rfl | hc
      · exact hlt
      · exact lt_trans hlt (hrest c hc)
    · split
      · exact (Memory.wf_cons ..).mpr ⟨ho, hrest, hwf⟩
      · refine (Memory.wf_cons ..).mpr ⟨ho, fun c hc => ?_, ih hwf⟩
        rcases Memory.mem_put hc with rfl | hc
        · simp only; omega
        · exact hrest c hc

/-- A buffer in canonical form lists no byte at or above its size. -/
theorem Memory.byteAt_of_size_le {n : Nat} {m : Memory} (hm : m.wf n = true) {x : Nat} (hx : n ≤ x) :
    m.byteAt x = none := by
  induction m with
  | nil => rfl
  | cons c rest ih =>
    obtain ⟨o, b⟩ := c
    obtain ⟨ho, -, hwf⟩ := (Memory.wf_cons ..).mp hm
    simp only [Memory.byteAt, ih hwf]
    split
    · omega
    · rfl

/-- The memory of the reset state has the canonical form. -/
theorem Memory.wf_resetWith (cfg : Config.Params) (n k : Nat) :
    (State.resetWith cfg n).txbuf.wf k = true ∧ (State.resetWith cfg n).rxbuf.wf k = true := ⟨rfl, rfl⟩

end Sys2Proof.Machine
end

