-- ==== Sys2Proof/Laws/State.lean ====
section
/-! SUPPORT. One lemma per field for each named update of the state: what it sets and what it leaves. -/

namespace Sys2Proof.Machine

@[simp] theorem raise_cfg (e : Err) (s : State) : (raise e s).cfg = s.cfg := rfl
@[simp] theorem raise_cmdLast (e : Err) (s : State) : (raise e s).cmdLast = s.cmdLast := rfl
@[simp] theorem raise_status (e : Err) (s : State) : (raise e s).status = setError e s.status := rfl
@[simp] theorem raise_txplen (e : Err) (s : State) : (raise e s).txplen = s.txplen := rfl
@[simp] theorem raise_rxflen (e : Err) (s : State) : (raise e s).rxflen = s.rxflen := rfl
@[simp] theorem raise_ackin (e : Err) (s : State) : (raise e s).ackin = s.ackin := rfl
@[simp] theorem raise_ackout (e : Err) (s : State) : (raise e s).ackout = s.ackout := rfl
@[simp] theorem raise_seq (e : Err) (s : State) : (raise e s).seq = s.seq := rfl
@[simp] theorem raise_rxhdr (e : Err) (s : State) : (raise e s).rxhdr = s.rxhdr := rfl
@[simp] theorem raise_csum (e : Err) (s : State) : (raise e s).csum = s.csum := rfl
@[simp] theorem raise_sample (e : Err) (s : State) : (raise e s).sample = s.sample := rfl
@[simp] theorem raise_est (e : Err) (s : State) : (raise e s).est = s.est := rfl
@[simp] theorem raise_dev (e : Err) (s : State) : (raise e s).dev = s.dev := rfl
@[simp] theorem raise_tmo (e : Err) (s : State) : (raise e s).tmo = s.tmo := rfl
@[simp] theorem raise_initTmo (e : Err) (s : State) : (raise e s).initTmo = s.initTmo := rfl
@[simp] theorem raise_txbuf (e : Err) (s : State) : (raise e s).txbuf = s.txbuf := rfl
@[simp] theorem raise_rxbuf (e : Err) (s : State) : (raise e s).rxbuf = s.rxbuf := rfl
@[simp] theorem raise_resetCount (e : Err) (s : State) : (raise e s).resetCount = s.resetCount := rfl
@[simp] theorem raise_resetIn (e : Err) (s : State) : (raise e s).resetIn = s.resetIn := rfl
@[simp] theorem raise_pending (e : Err) (s : State) : (raise e s).pending = s.pending := rfl
@[simp] theorem raise_rdata (e : Err) (s : State) : (raise e s).rdata = s.rdata := rfl

@[simp] theorem putTx_cfg (s : State) (o : Nat) (b : Byte) : (putTx s o b).cfg = s.cfg := rfl
@[simp] theorem putTx_cmdLast (s : State) (o : Nat) (b : Byte) : (putTx s o b).cmdLast = s.cmdLast := rfl
@[simp] theorem putTx_status (s : State) (o : Nat) (b : Byte) : (putTx s o b).status = s.status := rfl
@[simp] theorem putTx_txplen (s : State) (o : Nat) (b : Byte) : (putTx s o b).txplen = s.txplen := rfl
@[simp] theorem putTx_rxflen (s : State) (o : Nat) (b : Byte) : (putTx s o b).rxflen = s.rxflen := rfl
@[simp] theorem putTx_ackin (s : State) (o : Nat) (b : Byte) : (putTx s o b).ackin = s.ackin := rfl
@[simp] theorem putTx_ackout (s : State) (o : Nat) (b : Byte) : (putTx s o b).ackout = s.ackout := rfl
@[simp] theorem putTx_seq (s : State) (o : Nat) (b : Byte) : (putTx s o b).seq = s.seq := rfl
@[simp] theorem putTx_rxhdr (s : State) (o : Nat) (b : Byte) : (putTx s o b).rxhdr = s.rxhdr := rfl
@[simp] theorem putTx_csum (s : State) (o : Nat) (b : Byte) : (putTx s o b).csum = s.csum := rfl
@[simp] theorem putTx_sample (s : State) (o : Nat) (b : Byte) : (putTx s o b).sample = s.sample := rfl
@[simp] theorem putTx_est (s : State) (o : Nat) (b : Byte) : (putTx s o b).est = s.est := rfl
@[simp] theorem putTx_dev (s : State) (o : Nat) (b : Byte) : (putTx s o b).dev = s.dev := rfl
@[simp] theorem putTx_tmo (s : State) (o : Nat) (b : Byte) : (putTx s o b).tmo = s.tmo := rfl
@[simp] theorem putTx_initTmo (s : State) (o : Nat) (b : Byte) : (putTx s o b).initTmo = s.initTmo := rfl
@[simp] theorem putTx_txbuf (s : State) (o : Nat) (b : Byte) : (putTx s o b).txbuf = s.txbuf.put o b := rfl
@[simp] theorem putTx_rxbuf (s : State) (o : Nat) (b : Byte) : (putTx s o b).rxbuf = s.rxbuf := rfl
@[simp] theorem putTx_resetCount (s : State) (o : Nat) (b : Byte) : (putTx s o b).resetCount = s.resetCount := rfl
@[simp] theorem putTx_resetIn (s : State) (o : Nat) (b : Byte) : (putTx s o b).resetIn = s.resetIn := rfl
@[simp] theorem putTx_pending (s : State) (o : Nat) (b : Byte) : (putTx s o b).pending = s.pending := rfl
@[simp] theorem putTx_rdata (s : State) (o : Nat) (b : Byte) : (putTx s o b).rdata = s.rdata := rfl

@[simp] theorem putRx_cfg (s : State) (o : Nat) (b : Byte) : (putRx s o b).cfg = s.cfg := rfl
@[simp] theorem putRx_cmdLast (s : State) (o : Nat) (b : Byte) : (putRx s o b).cmdLast = s.cmdLast := rfl
@[simp] theorem putRx_status (s : State) (o : Nat) (b : Byte) : (putRx s o b).status = s.status := rfl
@[simp] theorem putRx_txplen (s : State) (o : Nat) (b : Byte) : (putRx s o b).txplen = s.txplen := rfl
@[simp] theorem putRx_rxflen (s : State) (o : Nat) (b : Byte) : (putRx s o b).rxflen = s.rxflen := rfl
@[simp] theorem putRx_ackin (s : State) (o : Nat) (b : Byte) : (putRx s o b).ackin = s.ackin := rfl
@[simp] theorem putRx_ackout (s : State) (o : Nat) (b : Byte) : (putRx s o b).ackout = s.ackout := rfl
@[simp] theorem putRx_seq (s : State) (o : Nat) (b : Byte) : (putRx s o b).seq = s.seq := rfl
@[simp] theorem putRx_rxhdr (s : State) (o : Nat) (b : Byte) : (putRx s o b).rxhdr = s.rxhdr := rfl
@[simp] theorem putRx_csum (s : State) (o : Nat) (b : Byte) : (putRx s o b).csum = s.csum := rfl
@[simp] theorem putRx_sample (s : State) (o : Nat) (b : Byte) : (putRx s o b).sample = s.sample := rfl
@[simp] theorem putRx_est (s : State) (o : Nat) (b : Byte) : (putRx s o b).est = s.est := rfl
@[simp] theorem putRx_dev (s : State) (o : Nat) (b : Byte) : (putRx s o b).dev = s.dev := rfl
@[simp] theorem putRx_tmo (s : State) (o : Nat) (b : Byte) : (putRx s o b).tmo = s.tmo := rfl
@[simp] theorem putRx_initTmo (s : State) (o : Nat) (b : Byte) : (putRx s o b).initTmo = s.initTmo := rfl
@[simp] theorem putRx_txbuf (s : State) (o : Nat) (b : Byte) : (putRx s o b).txbuf = s.txbuf := rfl
@[simp] theorem putRx_rxbuf (s : State) (o : Nat) (b : Byte) : (putRx s o b).rxbuf = s.rxbuf.put o b := rfl
@[simp] theorem putRx_resetCount (s : State) (o : Nat) (b : Byte) : (putRx s o b).resetCount = s.resetCount := rfl
@[simp] theorem putRx_resetIn (s : State) (o : Nat) (b : Byte) : (putRx s o b).resetIn = s.resetIn := rfl
@[simp] theorem putRx_pending (s : State) (o : Nat) (b : Byte) : (putRx s o b).pending = s.pending := rfl
@[simp] theorem putRx_rdata (s : State) (o : Nat) (b : Byte) : (putRx s o b).rdata = s.rdata := rfl

@[simp] theorem setAck_cfg (b : Byte) (v : Bool) (s : State) : (setAck b v s).cfg = s.cfg := rfl
@[simp] theorem setAck_cmdLast (b : Byte) (v : Bool) (s : State) : (setAck b v s).cmdLast = s.cmdLast := rfl
@[simp] theorem setAck_status (b : Byte) (v : Bool) (s : State) : (setAck b v s).status = s.status := rfl
@[simp] theorem setAck_txplen (b : Byte) (v : Bool) (s : State) : (setAck b v s).txplen = s.txplen := rfl
@[simp] theorem setAck_rxflen (b : Byte) (v : Bool) (s : State) : (setAck b v s).rxflen = s.rxflen := rfl
@[simp] theorem setAck_ackin (b : Byte) (v : Bool) (s : State) : (setAck b v s).ackin = s.ackin := rfl
@[simp] theorem setAck_ackout (b : Byte) (v : Bool) (s : State) : (setAck b v s).ackout = ⟨b, v⟩ := rfl
@[simp] theorem setAck_seq (b : Byte) (v : Bool) (s : State) : (setAck b v s).seq = s.seq := rfl
@[simp] theorem setAck_rxhdr (b : Byte) (v : Bool) (s : State) : (setAck b v s).rxhdr = s.rxhdr := rfl
@[simp] theorem setAck_csum (b : Byte) (v : Bool) (s : State) : (setAck b v s).csum = s.csum := rfl
@[simp] theorem setAck_sample (b : Byte) (v : Bool) (s : State) : (setAck b v s).sample = s.sample := rfl
@[simp] theorem setAck_est (b : Byte) (v : Bool) (s : State) : (setAck b v s).est = s.est := rfl
@[simp] theorem setAck_dev (b : Byte) (v : Bool) (s : State) : (setAck b v s).dev = s.dev := rfl
@[simp] theorem setAck_tmo (b : Byte) (v : Bool) (s : State) : (setAck b v s).tmo = s.tmo := rfl
@[simp] theorem setAck_initTmo (b : Byte) (v : Bool) (s : State) : (setAck b v s).initTmo = s.initTmo := rfl
@[simp] theorem setAck_txbuf (b : Byte) (v : Bool) (s : State) : (setAck b v s).txbuf = s.txbuf := rfl
@[simp] theorem setAck_rxbuf (b : Byte) (v : Bool) (s : State) : (setAck b v s).rxbuf = s.rxbuf := rfl
@[simp] theorem setAck_resetCount (b : Byte) (v : Bool) (s : State) : (setAck b v s).resetCount = s.resetCount := rfl
@[simp] theorem setAck_resetIn (b : Byte) (v : Bool) (s : State) : (setAck b v s).resetIn = s.resetIn := rfl
@[simp] theorem setAck_pending (b : Byte) (v : Bool) (s : State) : (setAck b v s).pending = s.pending := rfl
@[simp] theorem setAck_rdata (b : Byte) (v : Bool) (s : State) : (setAck b v s).rdata = s.rdata := rfl

@[simp] theorem checkAck_cfg (b : Bool) (s : State) : (checkAck b s).cfg = s.cfg := rfl
@[simp] theorem checkAck_cmdLast (b : Bool) (s : State) : (checkAck b s).cmdLast = s.cmdLast := rfl
@[simp] theorem checkAck_status (b : Bool) (s : State) :
    (checkAck b s).status =
      { s.status with ackMatch := ackMatches s.ackin b } := rfl
@[simp] theorem checkAck_txplen (b : Bool) (s : State) : (checkAck b s).txplen = s.txplen := rfl
@[simp] theorem checkAck_rxflen (b : Bool) (s : State) : (checkAck b s).rxflen = s.rxflen := rfl
@[simp] theorem checkAck_ackin (b : Bool) (s : State) : (checkAck b s).ackin = s.ackin := rfl
@[simp] theorem checkAck_ackout (b : Bool) (s : State) : (checkAck b s).ackout = s.ackout := rfl
@[simp] theorem checkAck_seq (b : Bool) (s : State) : (checkAck b s).seq = s.seq := rfl
@[simp] theorem checkAck_rxhdr (b : Bool) (s : State) : (checkAck b s).rxhdr = s.rxhdr := rfl
@[simp] theorem checkAck_csum (b : Bool) (s : State) : (checkAck b s).csum = s.csum := rfl
@[simp] theorem checkAck_sample (b : Bool) (s : State) : (checkAck b s).sample = s.sample := rfl
@[simp] theorem checkAck_est (b : Bool) (s : State) : (checkAck b s).est = s.est := rfl
@[simp] theorem checkAck_dev (b : Bool) (s : State) : (checkAck b s).dev = s.dev := rfl
@[simp] theorem checkAck_tmo (b : Bool) (s : State) : (checkAck b s).tmo = s.tmo := rfl
@[simp] theorem checkAck_initTmo (b : Bool) (s : State) : (checkAck b s).initTmo = s.initTmo := rfl
@[simp] theorem checkAck_txbuf (b : Bool) (s : State) : (checkAck b s).txbuf = s.txbuf := rfl
@[simp] theorem checkAck_rxbuf (b : Bool) (s : State) : (checkAck b s).rxbuf = s.rxbuf := rfl
@[simp] theorem checkAck_resetCount (b : Bool) (s : State) : (checkAck b s).resetCount = s.resetCount := rfl
@[simp] theorem checkAck_resetIn (b : Bool) (s : State) : (checkAck b s).resetIn = s.resetIn := rfl
@[simp] theorem checkAck_pending (b : Bool) (s : State) : (checkAck b s).pending = s.pending := rfl
@[simp] theorem checkAck_rdata (b : Bool) (s : State) : (checkAck b s).rdata = s.rdata := rfl

@[simp] theorem verifyFrame_cfg (s : State) : (verifyFrame s).cfg = s.cfg := rfl
@[simp] theorem verifyFrame_cmdLast (s : State) : (verifyFrame s).cmdLast = s.cmdLast := rfl
@[simp] theorem verifyFrame_status (s : State) :
    (verifyFrame s).status =
      verifyStatus (rxFrame s) s.seq.rxExp s.status := rfl
@[simp] theorem verifyFrame_txplen (s : State) : (verifyFrame s).txplen = s.txplen := rfl
@[simp] theorem verifyFrame_rxflen (s : State) : (verifyFrame s).rxflen = s.rxflen := rfl
@[simp] theorem verifyFrame_ackin (s : State) : (verifyFrame s).ackin = s.ackin := rfl
@[simp] theorem verifyFrame_ackout (s : State) : (verifyFrame s).ackout = s.ackout := rfl
@[simp] theorem verifyFrame_seq (s : State) : (verifyFrame s).seq = s.seq := rfl
@[simp] theorem verifyFrame_rxhdr (s : State) : (verifyFrame s).rxhdr = frameHeader (rxFrame s) := rfl
@[simp] theorem verifyFrame_csum (s : State) : (verifyFrame s).csum = csum16 (rxFrame s) := rfl
@[simp] theorem verifyFrame_sample (s : State) : (verifyFrame s).sample = s.sample := rfl
@[simp] theorem verifyFrame_est (s : State) : (verifyFrame s).est = s.est := rfl
@[simp] theorem verifyFrame_dev (s : State) : (verifyFrame s).dev = s.dev := rfl
@[simp] theorem verifyFrame_tmo (s : State) : (verifyFrame s).tmo = s.tmo := rfl
@[simp] theorem verifyFrame_initTmo (s : State) : (verifyFrame s).initTmo = s.initTmo := rfl
@[simp] theorem verifyFrame_txbuf (s : State) : (verifyFrame s).txbuf = s.txbuf := rfl
@[simp] theorem verifyFrame_rxbuf (s : State) : (verifyFrame s).rxbuf = s.rxbuf := rfl
@[simp] theorem verifyFrame_resetCount (s : State) : (verifyFrame s).resetCount = s.resetCount := rfl
@[simp] theorem verifyFrame_resetIn (s : State) : (verifyFrame s).resetIn = s.resetIn := rfl
@[simp] theorem verifyFrame_pending (s : State) : (verifyFrame s).pending = s.pending := rfl
@[simp] theorem verifyFrame_rdata (s : State) : (verifyFrame s).rdata = s.rdata := rfl

@[simp] theorem encodeFrame_cfg (b : Bool) (s : State) : (encodeFrame b s).cfg = s.cfg := rfl
@[simp] theorem encodeFrame_cmdLast (b : Bool) (s : State) : (encodeFrame b s).cmdLast = s.cmdLast := rfl
@[simp] theorem encodeFrame_status (b : Bool) (s : State) : (encodeFrame b s).status = s.status := rfl
@[simp] theorem encodeFrame_txplen (b : Bool) (s : State) : (encodeFrame b s).txplen = s.txplen := rfl
@[simp] theorem encodeFrame_rxflen (b : Bool) (s : State) : (encodeFrame b s).rxflen = s.rxflen := rfl
@[simp] theorem encodeFrame_ackin (b : Bool) (s : State) : (encodeFrame b s).ackin = s.ackin := rfl
@[simp] theorem encodeFrame_ackout (b : Bool) (s : State) : (encodeFrame b s).ackout = s.ackout := rfl
@[simp] theorem encodeFrame_seq (b : Bool) (s : State) : (encodeFrame b s).seq = s.seq := rfl
@[simp] theorem encodeFrame_rxhdr (b : Bool) (s : State) : (encodeFrame b s).rxhdr = s.rxhdr := rfl
@[simp] theorem encodeFrame_csum (b : Bool) (s : State) : (encodeFrame b s).csum = frameChecksum b s := rfl
@[simp] theorem encodeFrame_sample (b : Bool) (s : State) : (encodeFrame b s).sample = s.sample := rfl
@[simp] theorem encodeFrame_est (b : Bool) (s : State) : (encodeFrame b s).est = s.est := rfl
@[simp] theorem encodeFrame_dev (b : Bool) (s : State) : (encodeFrame b s).dev = s.dev := rfl
@[simp] theorem encodeFrame_tmo (b : Bool) (s : State) : (encodeFrame b s).tmo = s.tmo := rfl
@[simp] theorem encodeFrame_initTmo (b : Bool) (s : State) : (encodeFrame b s).initTmo = s.initTmo := rfl
@[simp] theorem encodeFrame_txbuf (b : Bool) (s : State) :
    (encodeFrame b s).txbuf = putHeader b (frameChecksum b s) s.txbuf := rfl
@[simp] theorem encodeFrame_rxbuf (b : Bool) (s : State) : (encodeFrame b s).rxbuf = s.rxbuf := rfl
@[simp] theorem encodeFrame_resetCount (b : Bool) (s : State) : (encodeFrame b s).resetCount = s.resetCount := rfl
@[simp] theorem encodeFrame_resetIn (b : Bool) (s : State) : (encodeFrame b s).resetIn = s.resetIn := rfl
@[simp] theorem encodeFrame_pending (b : Bool) (s : State) : (encodeFrame b s).pending = s.pending := rfl
@[simp] theorem encodeFrame_rdata (b : Bool) (s : State) : (encodeFrame b s).rdata = s.rdata := rfl

@[simp] theorem takeEvent_cfg (rest : List HostEvent) (s : State) : (takeEvent rest s).cfg = s.cfg := rfl
@[simp] theorem takeEvent_cmdLast (rest : List HostEvent) (s : State) : (takeEvent rest s).cmdLast = s.cmdLast := rfl
@[simp] theorem takeEvent_status (rest : List HostEvent) (s : State) : (takeEvent rest s).status = s.status := rfl
@[simp] theorem takeEvent_txplen (rest : List HostEvent) (s : State) : (takeEvent rest s).txplen = s.txplen := rfl
@[simp] theorem takeEvent_rxflen (rest : List HostEvent) (s : State) : (takeEvent rest s).rxflen = s.rxflen := rfl
@[simp] theorem takeEvent_ackin (rest : List HostEvent) (s : State) : (takeEvent rest s).ackin = s.ackin := rfl
@[simp] theorem takeEvent_ackout (rest : List HostEvent) (s : State) : (takeEvent rest s).ackout = s.ackout := rfl
@[simp] theorem takeEvent_seq (rest : List HostEvent) (s : State) : (takeEvent rest s).seq = s.seq := rfl
@[simp] theorem takeEvent_rxhdr (rest : List HostEvent) (s : State) : (takeEvent rest s).rxhdr = s.rxhdr := rfl
@[simp] theorem takeEvent_csum (rest : List HostEvent) (s : State) : (takeEvent rest s).csum = s.csum := rfl
@[simp] theorem takeEvent_sample (rest : List HostEvent) (s : State) : (takeEvent rest s).sample = s.sample := rfl
@[simp] theorem takeEvent_est (rest : List HostEvent) (s : State) : (takeEvent rest s).est = s.est := rfl
@[simp] theorem takeEvent_dev (rest : List HostEvent) (s : State) : (takeEvent rest s).dev = s.dev := rfl
@[simp] theorem takeEvent_tmo (rest : List HostEvent) (s : State) : (takeEvent rest s).tmo = s.tmo := rfl
@[simp] theorem takeEvent_initTmo (rest : List HostEvent) (s : State) : (takeEvent rest s).initTmo = s.initTmo := rfl
@[simp] theorem takeEvent_txbuf (rest : List HostEvent) (s : State) : (takeEvent rest s).txbuf = s.txbuf := rfl
@[simp] theorem takeEvent_rxbuf (rest : List HostEvent) (s : State) : (takeEvent rest s).rxbuf = s.rxbuf := rfl
@[simp] theorem takeEvent_resetCount (rest : List HostEvent) (s : State) :
    (takeEvent rest s).resetCount =
      s.resetCount := rfl
@[simp] theorem takeEvent_resetIn (rest : List HostEvent) (s : State) : (takeEvent rest s).resetIn = s.resetIn := rfl
@[simp] theorem takeEvent_pending (rest : List HostEvent) (s : State) : (takeEvent rest s).pending = rest := rfl
@[simp] theorem takeEvent_rdata (rest : List HostEvent) (s : State) : (takeEvent rest s).rdata = none := rfl

@[simp] theorem applyReset_cfg (s : State) : (applyReset s).cfg = s.cfg := rfl
@[simp] theorem applyReset_cmdLast (s : State) : (applyReset s).cmdLast = 0#32 := rfl
@[simp] theorem applyReset_status (s : State) :
    (applyReset s).status =
      ⟨false, false, false, false, false, false, false, false, false, false, false, false, false⟩ := rfl
@[simp] theorem applyReset_txplen (s : State) : (applyReset s).txplen = 0#16 := rfl
@[simp] theorem applyReset_rxflen (s : State) : (applyReset s).rxflen = 0#16 := rfl
@[simp] theorem applyReset_ackin (s : State) : (applyReset s).ackin = ⟨0#8, 0#8, 0#2⟩ := rfl
@[simp] theorem applyReset_ackout (s : State) : (applyReset s).ackout = ⟨0#8, false⟩ := rfl
@[simp] theorem applyReset_seq (s : State) : (applyReset s).seq = ⟨false, false, false⟩ := rfl
@[simp] theorem applyReset_rxhdr (s : State) : (applyReset s).rxhdr = ⟨0#8, 0#16, false, false⟩ := rfl
@[simp] theorem applyReset_csum (s : State) : (applyReset s).csum = 0#16 := rfl
@[simp] theorem applyReset_sample (s : State) : (applyReset s).sample = 0#64 := rfl
@[simp] theorem applyReset_est (s : State) : (applyReset s).est = 0#64 := rfl
@[simp] theorem applyReset_dev (s : State) : (applyReset s).dev = 0#64 := rfl
@[simp] theorem applyReset_tmo (s : State) : (applyReset s).tmo = s.cfg.initTimeoutReset := rfl
@[simp] theorem applyReset_initTmo (s : State) : (applyReset s).initTmo = s.cfg.initTimeoutReset := rfl
@[simp] theorem applyReset_txbuf (s : State) : (applyReset s).txbuf = [] := rfl
@[simp] theorem applyReset_rxbuf (s : State) : (applyReset s).rxbuf = [] := rfl
@[simp] theorem applyReset_resetCount (s : State) : (applyReset s).resetCount = s.resetCount + 1 := rfl
@[simp] theorem applyReset_resetIn (s : State) : (applyReset s).resetIn = true := rfl
@[simp] theorem applyReset_pending (s : State) : (applyReset s).pending = s.pending := rfl
@[simp] theorem applyReset_rdata (s : State) : (applyReset s).rdata = none := rfl

end Sys2Proof.Machine
end

