-- ==== Sys2Proof/Laws/Ops.lean ====
section
/-! SUPPORT. For each shared operation, what it can do, said once. -/

namespace Sys2Proof.Machine

/-! ### Buffer bytes -/

theorem txByte_putTx (s : State) (o x : Nat) (b : Byte) :
    txByte (putTx s o b) x = if x = o then b else txByte s x := by
  simp only [txByte, putTx, Memory.byteAt_put]; split <;> rfl

theorem rxByte_putRx (s : State) (o x : Nat) (b : Byte) :
    rxByte (putRx s o b) x = if x = o then b else rxByte s x := by
  simp only [rxByte, putRx, Memory.byteAt_put]; split <;> rfl

@[simp] theorem rxByte_putTx (s : State) (o x : Nat) (b : Byte) : rxByte (putTx s o b) x = rxByte s x := rfl

@[simp] theorem txByte_putRx (s : State) (o x : Nat) (b : Byte) : txByte (putRx s o b) x = txByte s x := rfl

@[simp] theorem length_txPayload (s : State) : (txPayload s).length = s.txplen.toNat := by simp [txPayload]

@[simp] theorem length_rxFrame (s : State) : (rxFrame s).length = s.rxflen.toNat := by simp [rxFrame]

theorem rxFrame_getD (s : State) {i : Nat} (h : i < s.rxflen.toNat) (d : Byte) : (rxFrame s).getD i d = rxByte s i := by
  simp [rxFrame, List.getD, h]

theorem rxFrame_headD (s : State) (h : 0 < s.rxflen.toNat) (d : Byte) : (rxFrame s).headD d = rxByte s 0 := by
  have : (rxFrame s)[0]? = some (rxByte s 0) := by simp [rxFrame, h]
  cases hf : rxFrame s with
  | nil => simp [hf] at this
  | cons a rest => simpa [hf] using this

/-- A write to a buffer word changes only its lanes below BUF_SIZE, and of the state only that buffer. -/
theorem txByte_writeLanes (s : State) (size o x : Nat) (d : Word) :
    txByte (writeLanes putTx size o d s) x =
      if o ≤ x ∧ x < o + 4 ∧ x < size then lane d (x - o) else txByte s x := by
  have store (s : State) (i : Nat) : txByte (if o + i < size then putTx s (o + i) (lane d i) else s) x =
      if x = o + i ∧ x < size then lane d i else txByte s x := by
    split
    · next h => rw [txByte_putTx]; by_cases hx : x = o + i <;> simp [hx, h]
    · next h => rw [if_neg]; rintro ⟨rfl, h'⟩; exact h h'
  simp only [writeLanes, store]
  by_cases h : o ≤ x ∧ x < o + 4 ∧ x < size
  · obtain ⟨h1, h2, h3⟩ := h
    obtain ⟨i, rfl⟩ := Nat.exists_eq_add_of_le h1
    have : i = 0 ∨ i = 1 ∨ i = 2 ∨ i = 3 := by omega
    rcases this with rfl | rfl | rfl | rfl <;> simp_all
  · rw [if_neg h, if_neg, if_neg, if_neg, if_neg] <;> omega

theorem rxByte_writeLanes (s : State) (size o x : Nat) (d : Word) :
    rxByte (writeLanes putRx size o d s) x =
      if o ≤ x ∧ x < o + 4 ∧ x < size then lane d (x - o) else rxByte s x := by
  have store (s : State) (i : Nat) : rxByte (if o + i < size then putRx s (o + i) (lane d i) else s) x =
      if x = o + i ∧ x < size then lane d i else rxByte s x := by
    split
    · next h => rw [rxByte_putRx]; by_cases hx : x = o + i <;> simp [hx, h]
    · next h => rw [if_neg]; rintro ⟨rfl, h'⟩; exact h h'
  simp only [writeLanes, store]
  by_cases h : o ≤ x ∧ x < o + 4 ∧ x < size
  · obtain ⟨h1, h2, h3⟩ := h
    obtain ⟨i, rfl⟩ := Nat.exists_eq_add_of_le h1
    have : i = 0 ∨ i = 1 ∨ i = 2 ∨ i = 3 := by omega
    rcases this with rfl | rfl | rfl | rfl <;> simp_all
  · rw [if_neg h, if_neg, if_neg, if_neg, if_neg] <;> omega

theorem writeLanes_putTx_frame (s : State) (size o : Nat) (d : Word) :
    writeLanes putTx size o d s = { s with txbuf := (writeLanes putTx size o d s).txbuf } := by
  simp only [writeLanes, putTx]; split <;> split <;> split <;> split <;> rfl

theorem writeLanes_putRx_frame (s : State) (size o : Nat) (d : Word) :
    writeLanes putRx size o d s = { s with rxbuf := (writeLanes putRx size o d s).rxbuf } := by
  simp only [writeLanes, putRx]; split <;> split <;> split <;> split <;> rfl

theorem writeLanes_putTx_wf {s : State} {size o : Nat} {d : Word} (h : s.txbuf.wf size = true) :
    (writeLanes putTx size o d s).txbuf.wf size = true := by
  have store (s : State) (i : Nat) (hs : s.txbuf.wf size = true) :
      (if o + i < size then putTx s (o + i) (lane d i) else s).txbuf.wf size = true := by
    split
    · next hi => exact Memory.wf_put hs hi
    · exact hs
  exact store _ 3 (store _ 2 (store _ 1 (store _ 0 h)))

theorem writeLanes_putRx_wf {s : State} {size o : Nat} {d : Word} (h : s.rxbuf.wf size = true) :
    (writeLanes putRx size o d s).rxbuf.wf size = true := by
  have store (s : State) (i : Nat) (hs : s.rxbuf.wf size = true) :
      (if o + i < size then putRx s (o + i) (lane d i) else s).rxbuf.wf size = true := by
    split
    · next hi => exact Memory.wf_put hs hi
    · exact hs
  exact store _ 3 (store _ 2 (store _ 1 (store _ 0 h)))

/-! ### Errors -/

@[simp] theorem errorBit_setError (e e' : Err) (st : Status) :
    errorBit (setError e st) e' = (decide (e = e') || errorBit st e') := by
  cases e <;> cases e' <;> simp [errorBit, setError]

/-- A STATUS write sets no sticky bit. -/
theorem errorBit_clearErrors_le (d : Word) (st : Status) (e : Err) (h : errorBit (clearErrors d st) e = true) :
    errorBit st e = true := by
  cases e <;> simp_all [errorBit, clearErrors]

/-! ### The codec -/

/-- The header write changes offsets 0, 1 and 2 and nothing else. -/
theorem byteAt_putHeader (b : Bool) (c : Half) (m : Memory) (x : Nat) :
    (putHeader b c m).byteAt x =
      if x = 0 then some (seqByte b) else if x = 1 then some (c.extractLsb' 8 8)
      else if x = 2 then some (c.extractLsb' 0 8) else m.byteAt x := by
  simp only [putHeader, Memory.byteAt_put]
  by_cases h0 : x = 0
  · simp [h0]
  · by_cases h1 : x = 1 <;> simp [h0, h1]

theorem putHeader_wf {n : Nat} {m : Memory} (b : Bool) (c : Half) (hm : m.wf n = true) (hn : 3 ≤ n) :
    (putHeader b c m).wf n = true :=
  Memory.wf_put (Memory.wf_put (Memory.wf_put hm (by omega)) (by omega)) (by omega)

/-- The encoder writes the three header bytes and nothing else of TXBUF. -/
theorem txByte_encodeFrame (b : Bool) (s : State) (x : Nat) :
    txByte (encodeFrame b s) x =
      if x = 0 then seqByte b
      else if x = 1 then (frameChecksum b s).extractLsb' 8 8
      else if x = 2 then (frameChecksum b s).extractLsb' 0 8
      else txByte s x := by
  simp only [txByte, encodeFrame_txbuf, encodeFrame_resetCount, byteAt_putHeader]
  split_ifs <;> rfl

theorem encodeFrame_frame (b : Bool) (s : State) :
    encodeFrame b s = { s with txbuf := (encodeFrame b s).txbuf, csum := (encodeFrame b s).csum } := rfl

theorem seqByte_injective (a b : Bool) : seqByte a = seqByte b ↔ a = b := by cases a <;> cases b <;> decide

theorem seqByte_toNat (b : Bool) : (seqByte b).toNat = b.toNat := by cases b <;> rfl

/-- SEQ_MATCH of the received frame, by its first byte. -/
theorem seqMatches_rxFrame (s : State) (b : Bool) :
    seqMatches (rxFrame s) b = decide (1 ≤ s.rxflen.toNat ∧ rxByte s 0 = seqByte b) := by
  unfold seqMatches
  have hlen := length_rxFrame s
  have hget := rxFrame_headD s (d := 0x00#8)
  cases hf : rxFrame s with
  | nil => rw [hf] at hlen; simp at hlen; simp [← hlen]
  | cons a rest =>
    rw [hf] at hlen hget
    simp only [List.length_cons] at hlen
    have : 0 < s.rxflen.toNat := by omega
    have ha := hget this
    simp only [List.headD_cons] at ha
    subst ha
    have h1 : 1 ≤ s.rxflen.toNat := this
    simp only [List.head?_cons, h1, true_and, Option.some_beq_some]
    rfl

/-- FRAME_OK of the received frame. -/
theorem frameOk_rxFrame (s : State) :
    frameOk (rxFrame s) = decide (3 ≤ s.rxflen.toNat ∧ csum16 (rxFrame s) = 0x0000#16) := by
  by_cases h : csum16 (rxFrame s) = 0x0000#16 <;> simp [frameOk, isCorrupt, h]

theorem ackMatches_iff (a : AckIn) (b : Bool) : ackMatches a b = true ↔ a.len = 1#2 ∧ a.byte0 = seqByte b := by
  simp [ackMatches]

/-! ### RTT -/

theorem rttUpdate_of_valid {s : State} (h : sampleValid s.sample = true) :
    rttUpdate s = { s with
      est := nextEst s.est s.sample
      dev := nextDev s.dev s.sample (nextEst s.est s.sample)
      tmo := nextTmo (nextEst s.est s.sample) (nextDev s.dev s.sample (nextEst s.est s.sample))
      status := { s.status with rttUpdated := true } } := by
  simp [rttUpdate, h]

theorem rttUpdate_of_invalid {s : State} (h : sampleValid s.sample = false) :
    rttUpdate s = { s with status := { s.status with errRtt := true, rttUpdated := false } } := by
  simp [rttUpdate, h, raise, setError]

/-- All that RttUpdate can do: EST, DEV, TMO, RTT_UPDATED and ERR_RTT. -/
theorem rttUpdate_frame (s : State) :
    rttUpdate s = { s with
      est := (rttUpdate s).est, dev := (rttUpdate s).dev, tmo := (rttUpdate s).tmo
      status := { s.status with
        rttUpdated := (rttUpdate s).status.rttUpdated, errRtt := (rttUpdate s).status.errRtt } } := by
  cases h : sampleValid s.sample
  · rw [rttUpdate_of_invalid h]
  · rw [rttUpdate_of_valid h]

/-- SampleValid by the bits of the sample (R172). -/
theorem sampleValid_iff (v : Dword) :
    sampleValid v = true ↔
      v.extractLsb' 52 11 ≠ 0x7FF#11 ∧ ¬(v.getLsbD 63 = true ∧ v.extractLsb' 0 63 ≠ 0#63) := by
  have h : (v.extractLsb' 52 11).toNat = 0x7FF ↔ v.extractLsb' 52 11 = 0x7FF#11 := by
    rw [← BitVec.toNat_inj]; rfl
  simp only [sampleValid, b64IsFinite, b64Exp, fnegStrict, b64Neg, Bool.and_eq_true, bne_iff_ne, ne_eq,
    Bool.not_eq_true', Bool.and_eq_false_iff, h]
  refine and_congr_right fun _ => ?_
  cases v.getLsbD 63 <;> simp

/-! ### The commit commands -/

theorem acceptAck_retransmitted {s : State} (h : s.seq.retx = true) :
    acceptAck s = { s with
      seq := ⟨!s.seq.txSeq, s.seq.rxExp, false⟩
      status := { s.status with rttUpdated := false, advanced := true } } := by
  simp [acceptAck, feedSample, h]

theorem acceptAck_first {s : State} (h : s.seq.retx = false) :
    acceptAck s = { rttUpdate s with
      seq := ⟨!s.seq.txSeq, s.seq.rxExp, false⟩
      status := { (rttUpdate s).status with advanced := true } } := by
  have : (rttUpdate s).seq = s.seq := by rw [rttUpdate_frame]
  simp [acceptAck, feedSample, h, this]

/-- The two branches of TXCOMMIT, by the comparison. -/
theorem execTxcommit_accepts {s : State} (h : ackMatches s.ackin s.seq.txSeq = true) :
    execTxcommit s = .next (acceptAck (checkAck s.seq.txSeq s)) := by
  simp [execTxcommit, h]

theorem execTxcommit_rejects {s : State} (h : ackMatches s.ackin s.seq.txSeq = false) :
    execTxcommit s = .next (rejectAck (checkAck s.seq.txSeq s)) := by
  simp [execTxcommit, h]

/-- The acks RXCOMMIT can set: none, a wire byte of a bit, or the received byte. -/
theorem receiverAck_cases (v : State) :
    receiverAck v = ⟨0x00#8, false⟩ ∨ receiverAck v = ⟨seqByte (!v.seq.rxExp), true⟩ ∨
    receiverAck v = ⟨v.rxhdr.rxSeq, true⟩ := by
  unfold receiverAck; split
  · exact .inl rfl
  · split
    · exact .inr (.inl rfl)
    · exact .inr (.inr rfl)

end Sys2Proof.Machine
end

