-- ==== Sys2Proof/Laws/PerInstr.lean ====
section
/-! SUPPORT. Statements about every instruction as syntax, one lemma per constructor. -/

namespace Sys2Proof.Laws.WordFields

/-- The fields of a command's word (R84): Z1 and Z0 are 0, OPC is the command's, and B is 0 unless I = 1. -/
def Statement (i : Instr) : Prop :=
  (encode i).extractLsb' 16 16 = 0#16 ∧ (encode i).extractLsb' 2 6 = 0#6 ∧
  (encode i).extractLsb' 8 8 = i.opcode ∧ ((encode i).getLsbD 0 = true → (encode i).getLsbD 1 = true)

theorem nop : Statement .nop := by unfold Statement; decide
theorem enc : Statement .enc := by unfold Statement; decide
theorem enci (b : Bool) : Statement (.enci b) := by unfold Statement; cases b <;> decide
theorem verify : Statement .verify := by unfold Statement; decide
theorem ackenc : Statement .ackenc := by unfold Statement; decide
theorem ackenci (b : Bool) : Statement (.ackenci b) := by unfold Statement; cases b <;> decide
theorem ackchk : Statement .ackchk := by unfold Statement; decide
theorem ackchki (b : Bool) : Statement (.ackchki b) := by unfold Statement; cases b <;> decide
theorem txflip : Statement .txflip := by unfold Statement; decide
theorem rxflip : Statement .rxflip := by unfold Statement; decide
theorem seqrst : Statement .seqrst := by unfold Statement; decide
theorem rttrst : Statement .rttrst := by unfold Statement; decide
theorem rttupd : Statement .rttupd := by unfold Statement; decide
theorem retxmark : Statement .retxmark := by unfold Statement; decide
theorem txcommit : Statement .txcommit := by unfold Statement; decide
theorem rxcommit : Statement .rxcommit := by unfold Statement; decide

end Sys2Proof.Laws.WordFields
end

