-- ==== Sys2Proof/Laws/Step.lean ====
section
/-! SUPPORT. The host port and the step: the address map, and every case a step can take. -/

namespace Sys2Proof.Machine

@[simp] theorem regAt_regAddr (r : Reg) : regAt (regAddr r) = some r := by cases r <;> decide

theorem regAddr_of_regAt {a : Addr} {r : Reg} (h : regAt a = some r) : a = regAddr r := by
  have := List.find?_some h
  exact (beq_iff_eq.mp this).symm

/-- Every register is at a multiple of 4 (R61). -/
theorem regAddr_aligned (r : Reg) : (regAddr r).extractLsb' 0 2 = 0#2 := by cases r <;> decide

@[simp] theorem target_regAddr (s : State) (r : Reg) : target s (regAddr r) = .reg r := by
  simp [target, regAddr_aligned]

/-- Every command answers a next state: the block has no trap (R207). -/
theorem exec_next (i : Instr) (s : State) : ∃ t, exec i s = .next t := by
  cases i
  case txcommit => simp only [exec, execTxcommit]; split <;> exact ⟨_, rfl⟩
  all_goals exact ⟨_, rfl⟩

theorem perform_next (d : Word) (s : State) : ∃ t, perform d s = .next t := by
  unfold perform; split
  · exact exec_next _ _
  · exact ⟨_, rfl⟩

/-- All that a write transaction can do, by what its address names. -/
theorem hostWrite_cases (a : Addr) (d : Word) (s : State) :
    (target s a = .misaligned ∧ hostWrite a d s = .next (raise .addr s)) ∨
    (target s a = .unmapped ∧ hostWrite a d s = .next (raise .addr s)) ∨
    (a = regAddr .cmd ∧ hostWrite a d s = perform d { s with cmdLast := d }) ∨
    (∃ r, r ≠ .cmd ∧ a = regAddr r ∧ hostWrite a d s = .next (writeReg s r d)) ∨
    (∃ o, target s a = .txWord o ∧ hostWrite a d s = .next (writeLanes putTx (bufSize s) o d s)) ∨
    (∃ o, target s a = .rxWord o ∧ hostWrite a d s = .next (writeLanes putRx (bufSize s) o d s)) := by
  have hreg {r} (h : target s a = .reg r) : a = regAddr r := by
    unfold target at h
    split at h
    · cases h
    · split at h
      · next hr => cases h; exact regAddr_of_regAt hr
      · split at h
        · split at h <;> cases h
        · split at h
          · split at h <;> cases h
          · cases h
  cases ht : target s a with
  | misaligned => exact .inl ⟨rfl, by simp [hostWrite, ht]⟩
  | unmapped => exact .inr (.inl ⟨rfl, by simp [hostWrite, ht]⟩)
  | txWord o => exact .inr (.inr (.inr (.inr (.inl ⟨o, rfl, by simp [hostWrite, ht]⟩))))
  | rxWord o => exact .inr (.inr (.inr (.inr (.inr ⟨o, rfl, by simp [hostWrite, ht]⟩))))
  | reg r =>
    by_cases hc : r = .cmd
    · subst hc; exact .inr (.inr (.inl ⟨hreg ht, by simp [hostWrite, ht, writeReg]⟩))
    · refine .inr (.inr (.inr (.inl ⟨r, hc, hreg ht, ?_⟩)))
      unfold hostWrite; rw [ht]
      cases r <;> first | exact absurd rfl hc | rfl

theorem hostWrite_next (a : Addr) (d : Word) (s : State) : ∃ t, hostWrite a d s = .next t := by
  rcases hostWrite_cases a d s with ⟨-, h⟩ | ⟨-, h⟩ | ⟨-, h⟩ | ⟨r, -, -, h⟩ | ⟨o, -, h⟩ | ⟨o, -, h⟩ <;> rw [h]
  · exact ⟨_, rfl⟩
  · exact ⟨_, rfl⟩
  · exact perform_next _ _
  all_goals exact ⟨_, rfl⟩

/-- All that a read transaction can do: return data, and ERR_ADDR. -/
theorem hostRead_cases (a : Addr) (s : State) :
    ((target s a = .misaligned ∨ target s a = .unmapped) ∧
      hostRead a s = { s with rdata := some 0#32, status := setError .addr s.status }) ∨
    ((target s a ≠ .misaligned ∧ target s a ≠ .unmapped) ∧ ∃ v, hostRead a s = { s with rdata := some v }) := by
  unfold hostRead
  cases ht : target s a
  · exact .inl ⟨.inl rfl, rfl⟩
  · exact .inl ⟨.inr rfl, rfl⟩
  all_goals exact .inr ⟨by simp, _, rfl⟩

/-- Every case of a step: idle, reset asserted, reset released, held in reset, a read, a write. -/
theorem step_cases (s : State) :
    (s.pending = [] ∧ step s = .next s) ∨
    (∃ rest, s.pending = .resetInput true :: rest ∧ step s = .next (applyReset (takeEvent rest s))) ∨
    (∃ rest, s.pending = .resetInput false :: rest ∧ step s = .next { takeEvent rest s with resetIn := false }) ∨
    (∃ e rest, s.pending = e :: rest ∧ s.resetIn = true ∧ (∀ l, e ≠ .resetInput l) ∧
      step s = .next (takeEvent rest s)) ∨
    (∃ a rest, s.pending = .rd a :: rest ∧ s.resetIn = false ∧ step s = .next (hostRead a (takeEvent rest s))) ∨
    (∃ a d rest, s.pending = .wr a d :: rest ∧ s.resetIn = false ∧
      step s = hostWrite a d (takeEvent rest s)) := by
  cases hp : s.pending with
  | nil => exact .inl ⟨rfl, by simp [step, serveNext, hp]⟩
  | cons e rest =>
    cases e with
    | resetInput l =>
      cases l
      · exact .inr (.inr (.inl ⟨rest, rfl, by simp [step, serveNext, serve, hp]⟩))
      · exact .inr (.inl ⟨rest, rfl, by simp [step, serveNext, serve, hp]⟩)
    | rd a =>
      cases hr : s.resetIn
      · exact .inr (.inr (.inr (.inr (.inl ⟨a, rest, rfl, rfl, by simp [step, serveNext, serve, hp, hr]⟩))))
      · exact .inr (.inr (.inr (.inl ⟨_, rest, rfl, rfl, by simp, by simp [step, serveNext, serve, hp, hr]⟩)))
    | wr a d =>
      cases hr : s.resetIn
      · exact .inr (.inr (.inr (.inr (.inr ⟨a, d, rest, rfl, rfl, by simp [step, serveNext, serve, hp, hr]⟩))))
      · exact .inr (.inr (.inr (.inl ⟨_, rest, rfl, rfl, by simp, by simp [step, serveNext, serve, hp, hr]⟩)))

end Sys2Proof.Machine
end

