-- ==== Sys2Proof/Tests/Slice0.lean ====
section
/-! SUPPORT. Tests: ill-formed terms refused, command words decoded, vectors of 95_test_vectors.md, and for each
statement of Certificates/Slice0/Obligations.lean that has hypotheses, a state that meets them. -/

namespace Sys2Proof.Tests

open Sys2Proof.Machine

/-! ### Helpers -/

/-- The reset state of a block with MAX_PACKET = 4, INIT_TIMEOUT_RESET = 1.0 and this RX_CORRUPT_ACK. -/
def base (c : Config.CorruptAck) : State := State.resetWith ⟨3, Config.defaultInitTimeout, c⟩ 0

/-- `base` with one event pending. -/
def withEvent (e : HostEvent) : State := { base .received with pending := [e] }

/-- Bytes of a buffer from offset 0. -/
def bytesAt (l : List Byte) : Memory := (List.range l.length).zip l

/-- `base` with a received frame in RXBUF. -/
def received (c : Config.CorruptAck) (f : List Byte) (rxExp : Bool) : State :=
  { base c with rxbuf := bytesAt f, rxflen := BitVec.ofNat 16 f.length, seq := ⟨false, rxExp, false⟩ }

/-- `base` with a payload in TXBUF. -/
def toSend (p : List Byte) (txSeq : Bool) : State :=
  { base .received with txbuf := bytesAt (0#8 :: 0#8 :: 0#8 :: p), txplen := BitVec.ofNat 16 p.length, seq := ⟨txSeq, false, false⟩ }

/-- `base` with one received ack byte. -/
def acked (b : Byte) (txSeq retx : Bool) : State :=
  { base .received with ackin := ⟨b, 0#8, 1#2⟩, seq := ⟨txSeq, false, retx⟩ }

/-- The next state, if there is one. -/
def nextOf : Host.Outcome State Fault Refusal → Option State
  | .next t => some t
  | .fault _ => none
  | .refused _ => none

/-- What a command leaves, as a function of the next state. -/
def after {α : Type} (i : Instr) (s : State) (f : State → α) : Option α := (nextOf (exec i s)).map f

/-- What a step leaves, as a function of the next state. -/
def afterStep {α : Type} (s : State) (f : State → α) : Option α := (nextOf (step s)).map f

/-! ### WellFormed: a term that each check refuses -/

theorem test_window_offset_not_multiple_of_4_refused : (AddrOperand.txbuf 6).wellFormed = false := by decide
theorem test_window_offset_past_window_refused : (AddrOperand.rxbuf 4096).wellFormed = false := by decide
theorem test_ldtx_too_long_refused : (Pseudo.ldtx [1#8, 2#8, 3#8, 4#8, 5#8]).wellFormed 4 = false := by decide
theorem test_ldrx_too_long_refused : (Pseudo.ldrx (List.replicate 8 0#8)).wellFormed 4 = false := by decide
theorem test_ldack_three_bytes_refused : (Pseudo.ldack [0#8, 1#8, 2#8]).wellFormed 4 = false := by decide
theorem test_line_with_bad_operand_refused : (Line.rd (.txbuf 2) none).wellFormed 4 = false := by decide
theorem test_line_with_bad_pseudo_refused : (Line.pseudo (.ldack [0#8, 1#8, 2#8])).wellFormed 4 = false := by decide
theorem test_full_buffer_loads_admitted : (Pseudo.ldtx [1#8, 2#8, 3#8, 4#8]).wellFormed 4 = true ∧
    (Pseudo.ldrx (List.replicate 7 0#8)).wellFormed 4 = true := by decide

/-! ### Decoding: the words of R86, written out, and a word of each illegal kind (R87) -/

theorem test_decode_nop : decode 0b00000000000000000000000000000000#32 = .ok .nop := by rfl
theorem test_decode_enc : decode 0b00000000000000000001000000000000#32 = .ok .enc := by rfl
theorem test_decode_enci : decode 0b00000000000000000001000000000011#32 = .ok (.enci true) := by rfl
theorem test_decode_verify : decode 0b00000000000000000001000100000000#32 = .ok .verify := by rfl
theorem test_decode_ackenc : decode 0b00000000000000000001001000000000#32 = .ok .ackenc := by rfl
theorem test_decode_ackenci : decode 0b00000000000000000001001000000010#32 = .ok (.ackenci false) := by rfl
theorem test_decode_ackchk : decode 0b00000000000000000001001100000000#32 = .ok .ackchk := by rfl
theorem test_decode_ackchki : decode 0b00000000000000000001001100000011#32 = .ok (.ackchki true) := by rfl
theorem test_decode_txflip : decode 0b00000000000000000010000000000000#32 = .ok .txflip := by rfl
theorem test_decode_rxflip : decode 0b00000000000000000010000100000000#32 = .ok .rxflip := by rfl
theorem test_decode_seqrst : decode 0b00000000000000000010001000000000#32 = .ok .seqrst := by rfl
theorem test_decode_rttrst : decode 0b00000000000000000011000000000000#32 = .ok .rttrst := by rfl
theorem test_decode_rttupd : decode 0b00000000000000000011000100000000#32 = .ok .rttupd := by rfl
theorem test_decode_retxmark : decode 0b00000000000000000011001000000000#32 = .ok .retxmark := by rfl
theorem test_decode_txcommit : decode 0b00000000000000000100000000000000#32 = .ok .txcommit := by rfl
theorem test_decode_rxcommit : decode 0b00000000000000000100000100000000#32 = .ok .rxcommit := by rfl
theorem test_decode_z1 : decode 0x00010000#32 = .error .upperHalfNotZero := by rfl
theorem test_decode_z0 : decode 0x00001004#32 = .error .lowFieldNotZero := by rfl
theorem test_decode_opc : decode 0x00005000#32 = .error .unknownOpcode := by rfl
theorem test_decode_i : decode 0x00002002#32 = .error .noImmediateForm := by rfl
theorem test_decode_b : decode 0x00001001#32 = .error .bitWithoutImmediateForm := by rfl
theorem test_decodeTableWord : decodeTableWord 32 0x1303 = some (.ackchki true) ∧ decodeTableWord 32 0x1301 = none := by
  decide

/-! ### The commands: vectors of 95_test_vectors.md (section in the name's comment) -/

/-- R103. -/
theorem test_nop : exec .nop (base .received) = .next (base .received) := rfl
/-- 2.2. -/
theorem test_enc_frame : after .enc (toSend [0x68#8, 0x69#8] false) txFrame =
    some [0x00#8, 0x97#8, 0x96#8, 0x68#8, 0x69#8] := by decide
/-- 2.2: a checksum field of 0x0000 is legal. -/
theorem test_enc_zero_field : after .enc (toSend [0xFF#8, 0xFF#8] false) (fun t => (txFrame t, t.csum)) =
    some ([0x00#8, 0x00#8, 0x00#8, 0xFF#8, 0xFF#8], 0x0000#16) := by decide
/-- 2.2: odd length, and TX_SEQ is not used. -/
theorem test_enci_frame : after (.enci true) (toSend [0x12#8, 0x34#8, 0x56#8] false) (fun t => (txFrame t, t.seq.txSeq)) =
    some ([0x01#8, 0x97#8, 0xCA#8, 0x12#8, 0x34#8, 0x56#8], false) := by decide
/-- 2.3. -/
theorem test_verify_accepted : after .verify (received .received [0x00#8, 0xBE#8, 0xFF#8, 0x41#8] false)
    (fun t => (readReg t .status, readReg t .rxhdr, readReg t .csum)) =
    some (0x38#32, 0x03BEFF00#32, 0x00000000#32) := by decide
/-- 2.3: the checksum verifies but the frame is short. -/
theorem test_verify_short : after .verify (received .received [0xFF#8, 0xFF#8] false)
    (fun t => (readReg t .status, readReg t .rxhdr)) = some (0x02#32, 0x010000FF#32) := by decide
/-- 2.4: the raw byte, not one bit. -/
theorem test_ackenc : after .ackenc { base .received with rxhdr := ⟨0x81#8, 0#16, true, false⟩ } (readReg · .ackout) =
    some 0x00000181#32 := by decide
/-- 2.4. -/
theorem test_ackenci : after (.ackenci true) (base .received) (readReg · .ackout) = some 0x00000101#32 := by decide
/-- 2.4: 0x81 is not zext_8(1). -/
theorem test_ackchk : after .ackchk (acked 0x81#8 true false) (readReg · .status) = some 0x00#32 := by decide
/-- 2.4. -/
theorem test_ackchki : after (.ackchki false) (acked 0x00#8 true false) (readReg · .status) = some 0x40#32 := by decide
/-- 2.5. -/
theorem test_txflip : after .txflip { base .received with seq := ⟨true, true, false⟩ } (readReg · .seq) =
    some 0x2#32 := by decide
/-- 2.5. -/
theorem test_rxflip : after .rxflip { base .received with seq := ⟨true, false, true⟩ } (readReg · .seq) =
    some 0x7#32 := by decide
/-- 2.5. -/
theorem test_seqrst : after .seqrst { base .received with seq := ⟨true, true, true⟩ } (readReg · .seq) =
    some 0x4#32 := by decide
/-- 2.6. -/
theorem test_rttrst : after .rttrst { base .received with
      est := 0x4008000000000000#64, dev := 0x3FF0000000000000#64, tmo := 0x401C000000000000#64
      initTmo := 0x4000000000000000#64, seq := ⟨true, false, true⟩ } (fun t => (t.est, t.dev, t.tmo, readReg t .seq)) =
    some (0x0#64, 0x0#64, 0x4000000000000000#64, 0x1#32) := by decide
/-- 2.6: inexact results, which fix the order and the rounding of every operation. -/
theorem test_rttupd_inexact : after .rttupd { base .received with
      est := 0x3FD8200000000000#64, dev := 0x3FDD880000000000#64, sample := 0x3FB999999999999A#64 }
      (fun t => (t.est, t.dev, t.tmo)) =
    some (0x3FD5E8CCCCCCCCCD#64, 0x3FDA06999999999A#64, 0x3FFF80CCCCCCCCCD#64) := by decide +kernel
/-- 2.6: TMO overflows alone. -/
theorem test_rttupd_overflow : after .rttupd { base .received with
      est := 0x7FEFFFFFFFFFFFFF#64, dev := 0x7FEFFFFFFFFFFFFF#64, sample := 0x7FEFFFFFFFFFFFFF#64 }
      (fun t => (t.est, t.dev, t.tmo)) =
    some (0x7FEFFFFFFFFFFFFF#64, 0x7FE7FFFFFFFFFFFF#64, 0x7FF0000000000000#64) := by decide +kernel
/-- 2.5. -/
theorem test_retxmark : after .retxmark { base .received with seq := ⟨true, false, false⟩ } (readReg · .seq) =
    some 0x5#32 := by decide
/-- 2.7: the ack is accepted although the sample is a NaN. -/
theorem test_txcommit_invalid_sample : after .txcommit { acked 0x00#8 false false with sample := 0x7FF8000000000000#64 }
      (fun t => (readReg t .status, readReg t .seq, t.tmo)) =
    some (0x000800C0#32, 0x1#32, 0x3FF0000000000000#64) := by decide +kernel
/-- 2.7: wrong bit. -/
theorem test_txcommit_rejects : after .txcommit (acked 0x01#8 false false) (fun t => (readReg t .status, readReg t .seq)) =
    some (0x0#32, 0x4#32) := by decide
/-- 2.8: the row that differs, RECEIVED. -/
theorem test_rxcommit_received : after .rxcommit (received .received [0x00#8, 0xBE#8, 0xFF#8, 0x40#8] false)
    (fun t => (readReg t .status, readReg t .ackout, readReg t .seq)) = some (0x09#32, 0x100#32, 0x0#32) := by decide
/-- 2.8: the row that differs, LAST_ACCEPTED. -/
theorem test_rxcommit_last : after .rxcommit (received .lastAccepted [0x00#8, 0xBE#8, 0xFF#8, 0x40#8] false)
    (fun t => (readReg t .status, readReg t .ackout, readReg t .seq)) = some (0x09#32, 0x101#32, 0x0#32) := by decide

/-! ### The host port and reset (2.9, 2.10) -/

theorem test_partial_word_read : afterStep
    { withEvent (.rd 0x1004#16) with txbuf := [(4, 0xAA#8), (5, 0xBB#8), (6, 0xCC#8)] } (·.rdata) =
    some (some 0x00CCBBAA#32) := by decide
theorem test_partial_word_write : afterStep (withEvent (.wr 0x1004#16 0xDDCCBBAA#32)) (·.txbuf) =
    some [(4, 0xAA#8), (5, 0xBB#8), (6, 0xCC#8)] := by decide
theorem test_w1c : afterStep { withEvent (.wr 0x0004#16 0x00040000#32) with
      status := ⟨true, false, false, false, false, false, false, false, false, true, true, true, false⟩ }
      (readReg · .status) = some 0x00030001#32 := by decide
theorem test_length_out_of_range : afterStep (withEvent (.wr 0x0008#16 5#32))
    (fun t => (readReg t .status, readReg t .txlen)) = some (0x00020000#32, 0x00030000#32) := by decide
theorem test_illegal_word : afterStep (withEvent (.wr 0x0000#16 0x00001001#32))
    (fun t => (readReg t .status, readReg t .cmd)) = some (0x00010000#32, 0x00001001#32) := by decide
theorem test_misaligned_write_issues_nothing : afterStep (withEvent (.wr 0x0001#16 0x00001000#32))
    (fun t => (readReg t .status, readReg t .cmd)) = some (0x00040000#32, 0x00000000#32) := by decide
theorem test_reset_reads : allRegs.map (readReg (base .received)) =
    [0#32, 0#32, 0x00030000#32, 0#32, 0#32, 0#32, 0#32, 0#32, 0#32, 4#32, 0#32, 0#32, 0#32, 0#32, 0#32, 0#32, 0#32,
     0x3FF00000#32, 0#32, 0x3FF00000#32] := by decide
theorem test_withFetchWord_runs_the_word :
    step (State.reset.withFetchWord 32 0x1203) = exec (.ackenci true) { State.reset with cmdLast := 0x1203#32 } := rfl
/-- R90: `LDACK [01]`, and `LDTX [41]` as in program P2. -/
theorem test_expansions : expandPseudo (.ldack [0x01#8]) = [.wr 0x0010#16 0x00010001#32] ∧
    expandPseudo (.ldtx [0x41#8]) = [.wr 0x1000#16 0x41000000#32, .wr 0x0008#16 1#32] := by decide
/-- An `RD` line that states a value the port did not return does not agree. -/
theorem test_stated_value : agreesWith (.rd (.reg .seq) (some 1#32)) { base .received with rdata := some 0#32 } = false := by
  decide

/-! ### Witnesses: the hypotheses of each statement can be met -/

theorem legal_base (c : Config.CorruptAck) : Legal (base c) where
  txLength := by cases c <;> decide
  rxLength := by cases c <;> decide
  ackLength := by cases c <;> decide
  txBuffer := rfl
  rxBuffer := rfl
  emptyFrame h := by cases h
  shortFrame h := by cases h
  headerHasByte h := by cases h
  noByte _ := rfl
  noHeader _ := rfl
  matchedByte h := by cases h
  frameOkFlag := rfl
  acceptFlag := rfl
  noAck _ := rfl
  estRange := by cases c <;> unfold NonNegative <;> decide
  devRange := by cases c <;> unfold NonNegative <;> decide
  heldInReset h := by cases h

theorem witness_OpcodeRowsDecideEveryWord :
    (∃ r ∈ opcodeTable, 0x00001203#32 &&& r.mask = r.word) ∧
    (∀ r ∈ opcodeTable, 0x00001201#32 &&& r.mask ≠ r.word) := by
  refine ⟨⟨_, List.mem_of_getElem? (i := 5) rfl, by decide⟩, by decide⟩

theorem witness_IllegalWordsOnlySetErrCmd (w : Word)
    (h : w ∈ [0x00010000#32, 0x80000000#32, 0x00000004#32, 0x00000080#32, 0x00000001#32, 0x00001102#32, 0x00001400#32,
      0x0000FF00#32]) :
    WritesNext (withEvent (.wr 0x0000#16 w)) 0x0000#16 w [] ∧ IllegalByFields w := by
  refine ⟨⟨rfl, rfl⟩, ?_⟩
  unfold IllegalByFields
  fin_cases h <;> decide

theorem witness_StepRunsDecodedCommand :
    WritesNext (withEvent (.wr 0x0000#16 0x00004100#32)) 0x0000#16 0x00004100#32 [] ∧
    decode 0x00004100#32 = .ok .rxcommit := ⟨⟨rfl, rfl⟩, rfl⟩

theorem witness_StepKeepsLegal : Legal (base .received) ∧ step (base .received) = .next (base .received) :=
  ⟨legal_base _, rfl⟩

theorem witness_EveryRunIsSafe : Legal (base .lastAccepted) := legal_base _

theorem witness_IdleKeepsAllState : (base .received).pending = [] := rfl

theorem witness_ResetLeavesTheResetState :
    (withEvent (.resetInput true)).pending = .resetInput true :: [] ∧
    ({ withEvent (.wr 0x0000#16 0x00001000#32) with resetIn := true }.resetIn = true ∧
      ∀ l, HostEvent.wr 0x0000#16 0x00001000#32 ≠ .resetInput l) ∧
    (withEvent (.resetInput false)).pending = .resetInput false :: [] := ⟨rfl, ⟨rfl, by simp⟩, rfl⟩

/-- A written word (its last byte, offset 6), ENC's header (offset 2), and the same of RXBUF. -/
theorem witness_BufferBytesKeepTheirValue :
    afterStep { withEvent (.wr 0x1004#16 0x00FF0000#32) with txbuf := [(6, 0x00#8)] } (fun t => txByte t 6) =
      some 0xFF#8 ∧
    afterStep { withEvent (.wr 0x0000#16 0x00001000#32) with txbuf := [(2, 0x00#8)] } (fun t => txByte t 2) =
      some 0xFF#8 ∧
    afterStep { withEvent (.wr 0x2000#16 0x000000FF#32) with rxbuf := [(0, 0x00#8)] } (fun t => rxByte t 0) =
      some 0xFF#8 := by decide

theorem witness_NoStepChangesParameters :
    step (withEvent (.wr 0x0024#16 9#32)) = .next { withEvent (.wr 0x0024#16 9#32) with pending := [] } := rfl

theorem witness_RegisterReadsHaveNoSideEffect (r : Reg) : ReadsNext (withEvent (.rd (regAddr r))) (regAddr r) [] :=
  ⟨rfl, rfl⟩

theorem witness_MisalignedAccessRaisesErrAddr (a : Addr) (h : a ∈ [0x0001#16, 0x0002#16, 0x0003#16, 0xFFFF#16]) :
    a.extractLsb' 0 2 ≠ 0#2 ∧ ReadsNext (withEvent (.rd a)) a [] ∧ WritesNext (withEvent (.wr a 0#32)) a 0#32 [] := by
  refine ⟨?_, ⟨rfl, rfl⟩, rfl, rfl⟩
  fin_cases h <;> decide

theorem witness_UnmappedAccessRaisesErrAddr (a : Addr)
    (h : a ∈ [0x0050#16, 0x0FFC#16, 0x1008#16, 0x1FFC#16, 0x2008#16, 0x2FFC#16, 0x3000#16, 0xFFFC#16]) :
    a.toNat % 4 = 0 ∧ UnmappedAddr (base .received) a ∧ ReadsNext (withEvent (.rd a)) a [] ∧
    WritesNext (withEvent (.wr a 0#32)) a 0#32 [] := by
  refine ⟨?_, ?_, ⟨rfl, rfl⟩, rfl, rfl⟩
  · fin_cases h <;> decide
  · unfold UnmappedAddr; fin_cases h <;> decide

/-- Offsets 0 and 4 of both windows; the word at offset 4 is partially mapped, BUF_SIZE being 7. -/
theorem witness_BufferWordReadsLanes (o : Nat) (h : o ∈ [0, 4]) :
    o % 4 = 0 ∧ o < bufSize (base .received) ∧ (BitVec.ofNat 16 (0x1000 + o)).toNat = 0x1000 + o ∧
    (BitVec.ofNat 16 (0x2000 + o)).toNat = 0x2000 + o ∧
    ReadsNext (withEvent (.rd (BitVec.ofNat 16 (0x1000 + o)))) (BitVec.ofNat 16 (0x1000 + o)) [] ∧
    ReadsNext (withEvent (.rd (BitVec.ofNat 16 (0x2000 + o)))) (BitVec.ofNat 16 (0x2000 + o)) [] := by
  refine ⟨?_, ?_, ?_, ?_, ⟨rfl, rfl⟩, rfl, rfl⟩ <;> revert o <;> decide

theorem witness_BufferWordWriteStoresLanes (o : Nat) (h : o ∈ [0, 4]) :
    o % 4 = 0 ∧ o < bufSize (base .received) ∧ (BitVec.ofNat 16 (0x1000 + o)).toNat = 0x1000 + o ∧
    (BitVec.ofNat 16 (0x2000 + o)).toNat = 0x2000 + o ∧
    WritesNext (withEvent (.wr (BitVec.ofNat 16 (0x1000 + o)) 1#32)) (BitVec.ofNat 16 (0x1000 + o)) 1#32 [] ∧
    WritesNext (withEvent (.wr (BitVec.ofNat 16 (0x2000 + o)) 1#32)) (BitVec.ofNat 16 (0x2000 + o)) 1#32 [] := by
  refine ⟨?_, ?_, ?_, ?_, ⟨rfl, rfl⟩, rfl, rfl⟩ <;> revert o <;> decide

/-- A block with all four sticky bits set. -/
def allErrors (e : HostEvent) : State := { withEvent e with
  status := ⟨false, false, false, false, false, false, false, false, false, true, true, true, true⟩ }

theorem witness_StickyErrorsClearedOnlyByStatusWrite :
    WritesNext (allErrors (.wr 0x0004#16 0x000F0000#32)) 0x0004#16 0x000F0000#32 [] ∧
    (allErrors (.wr 0x0004#16 0x000F0000#32)).pending = expandPseudo .clrerr ∧
    (∀ e ∈ [Err.cmd, Err.len, Err.addr, Err.rtt],
      errorBit (allErrors (.wr 0x0004#16 0x000F0000#32)).status e = true ∧
      afterStep (allErrors (.wr 0x0004#16 0x000F0000#32)) (fun t => errorBit t.status e) = some false) :=
  ⟨⟨rfl, rfl⟩, by decide, by decide⟩

/-- One event for each sticky bit, from STATUS = 0. -/
theorem witness_StickyErrorsHaveTheirCauses :
    afterStep (withEvent (.wr 0x0000#16 0x00001001#32)) (fun t => errorBit t.status .cmd) = some true ∧
    afterStep (withEvent (.wr 0x0008#16 5#32)) (fun t => errorBit t.status .len) = some true ∧
    afterStep (withEvent (.wr 0x000C#16 8#32)) (fun t => errorBit t.status .len) = some true ∧
    afterStep (withEvent (.wr 0x0010#16 0x00030000#32)) (fun t => errorBit t.status .len) = some true ∧
    afterStep (withEvent (.rd 0x0050#16)) (fun t => errorBit t.status .addr) = some true ∧
    afterStep { withEvent (.wr 0x0000#16 0x00003100#32) with sample := 0x8000000000000001#64 }
      (fun t => errorBit t.status .rtt) = some true := by decide

theorem witness_LengthWritesAreRangeChecked (a : Addr) (d : Word) : WritesNext (withEvent (.wr a d)) a d [] := ⟨rfl, rfl⟩

theorem witness_LengthWrites_command : exec .nop (base .received) = .next (base .received) := rfl

theorem witness_SeqWriteSetsThreeBits :
    WritesNext (withEvent (.wr 0x0018#16 0xFFFFFFFF#32)) 0x0018#16 0xFFFFFFFF#32 [] := ⟨rfl, rfl⟩

theorem witness_HalfWritesChangeOneHalf (a : Addr) (_ : a ∈ [0x0028#16, 0x002C#16, 0x0048#16, 0x004C#16]) :
    WritesNext (withEvent (.wr a 0xFFFFFFFF#32)) a 0xFFFFFFFF#32 [] := ⟨rfl, rfl⟩

/-- The first and the last read-only register; one pair of words for each mixed register; lengths at their bounds. -/
theorem witness_ReadOnlyBitsIgnoreWrites :
    (WritesNext (withEvent (.wr 0x0014#16 1#32)) 0x0014#16 1#32 [] ∧ WritesNext (withEvent (.wr 0x0044#16 1#32)) 0x0044#16 1#32 []) ∧
    ((0xFFFFFFFF#32).extractLsb' 16 4 = (0x000F0000#32).extractLsb' 16 4 ∧
      (0xFFFF0004#32).extractLsb' 0 16 = (0x00000004#32).extractLsb' 0 16 ∧
      (0xFFFE0201#32).extractLsb' 0 18 = (0x00020201#32).extractLsb' 0 18 ∧
      (0xFFFFFFFF#32).extractLsb' 0 3 = (0x00000007#32).extractLsb' 0 3) ∧
    ((0xFFFF0004#32).extractLsb' 0 16).toNat ≤ maxPacket (base .received) ∧
    ((0xFFFF0007#32).extractLsb' 0 16).toNat ≤ maxPacket (base .received) + 3 :=
  ⟨⟨⟨rfl, rfl⟩, rfl, rfl⟩, by decide, by decide, by decide⟩

theorem witness_RttStateChangedOnlyByRttCommands :
    afterStep { withEvent (.wr 0x0000#16 0x00003000#32) with
        est := 1#64, dev := 1#64, initTmo := 0#64 } (fun t => (t.est, t.dev, t.tmo)) = some (0#64, 0#64, 0#64) := by decide

/-- A payload and a frame of the greatest length (whose last word is cut at BUF_SIZE), empty ones, and ones of one
byte. -/
theorem witness_LoadPseudosFillTheBuffers (p f : List Byte)
    (hp : p ∈ [[], [1#8], [1#8, 2#8, 3#8, 4#8]]) (hf : f ∈ [[], [1#8], [1#8, 2#8, 3#8, 4#8, 5#8, 6#8, 7#8]]) :
    (p.length ≤ maxPacket (base .received) ∧
      { base .received with pending := expandPseudo (.ldtx p) }.pending = expandPseudo (.ldtx p)) ∧
    (f.length ≤ maxPacket (base .received) + 3 ∧
      { base .received with pending := expandPseudo (.ldrx f) }.pending = expandPseudo (.ldrx f)) := by
  refine ⟨⟨?_, rfl⟩, ?_, rfl⟩
  · revert p; decide
  · revert f; decide

theorem witness_NopOnlyStoresItsWord : WritesNext (withEvent (.wr 0x0000#16 0#32)) 0x0000#16 0#32 [] := ⟨rfl, rfl⟩

/-- The valid and the invalid samples at the edges of R172: -0.0, the greatest finite value; infinity, a NaN and the
negative value nearest to zero. -/
theorem witness_RttupdFeedsOneSample (v w : Dword)
    (hv : v ∈ [0x0000000000000000#64, 0x8000000000000000#64, 0x7FEFFFFFFFFFFFFF#64])
    (hw : w ∈ [0x7FF0000000000000#64, 0x7FF8000000000000#64, 0x8000000000000001#64]) :
    ValidSampleBits v ∧ ¬ValidSampleBits w := by
  unfold ValidSampleBits
  constructor
  · fin_cases hv <;> decide
  · fin_cases hw <;> decide

theorem witness_RttupdWorkedExample :
    { base .received with sample := 0x3FF0000000000000#64 }.est = 0#64 ∧
    { base .received with sample := 0x3FF0000000000000#64 }.dev = 0#64 := ⟨rfl, rfl⟩

/-- The three cases of TXCOMMIT, the last one with each way not to match. -/
theorem witness_TxcommitIsTheResponseStep :
    ((acked 0x01#8 true false).ackin.len = 1#2 ∧ (acked 0x01#8 true false).ackin.byte0 = seqByte true ∧
      (acked 0x01#8 true false).seq.retx = false) ∧
    ((acked 0x00#8 false true).ackin.byte0 = seqByte false ∧ (acked 0x00#8 false true).seq.retx = true) ∧
    (acked 0x80#8 false false).ackin.byte0 ≠ seqByte false ∧ (base .received).ackin.len ≠ 1#2 := by decide

/-- The three cases of RXCOMMIT's ack, the last one by each of its two ways. -/
theorem witness_RxcommitIsTheFrameStep :
    (base .received).rxflen.toNat = 0 ∧
    after .verify (received .lastAccepted [0x00#8] false) (fun v => (v.status.frameOk, v.cfg.rxCorruptAck)) =
      some (false, .lastAccepted) ∧
    after .verify (received .received [0x00#8, 0xFF#8, 0xFF#8] false) (·.status.frameOk) = some true ∧
    after .verify (received .received [0x00#8] false) (·.status.frameOk) = some false := by decide

theorem witness_FoldIsTheEndAroundCarryLoop : (0xFFFF : Nat) ≤ 0xFFFF ∧ 0xFFFF < (0x10000 : Nat) ∧ 0 < (1 : Nat) := by decide

theorem witness_AccumulationOrderDoesNotMatter :
    [0xFFFF, 0x0001].Perm (pairWords [0x01#8, 0x00#8, 0xFF#8, 0xFF#8]) := by decide

theorem witness_EncodedFramesVerify :
    ∃ t, exec (.enci true) (toSend [0x68#8, 0x69#8] false) = .next t ∧
      rxFrame (received .received [0x01#8, 0x97#8, 0x95#8, 0x68#8, 0x69#8] true) = txFrame t := ⟨_, rfl, by decide⟩

/-- The first and the last bit of a frame that passes. -/
theorem witness_SingleBitFlipIsDetected :
    csum16 [0x00#8, 0xBE#8, 0xFF#8, 0x41#8] = 0x0000#16 ∧
    csum16 [0x00#8 ^^^ (0x01#8 <<< 0), 0xBE#8, 0xFF#8, 0x41#8] = 0xFFFE#16 ∧
    csum16 [0x00#8, 0xBE#8, 0xFF#8, 0x41#8 ^^^ (0x01#8 <<< 7)] ≠ 0x0000#16 := by decide

/-- Frames of 2.11 for each clause. -/
theorem witness_ChecksumBlindSpots :
    (csum16 [0x00#8, 0xFF#8, 0xFF#8] = 0x0000#16 ∧
      wordSum [0x00#8, 0xFF#8, 0xFF#8, 0xFF#8, 0xFF#8] % 65535 = wordSum [0x00#8, 0xFF#8, 0xFF#8] % 65535 ∧
      0 < wordSum [0x00#8, 0xFF#8, 0xFF#8, 0xFF#8, 0xFF#8]) ∧
    csum16 ([0x00#8, 0xFF#8, 0xFF#8, 0x00#8] ++ [0x00#8, 0x00#8] ++ [0x00#8]) = 0x0000#16 ∧
    (1 < [0x00#8, 0xBE#8, 0xFF#8, 0x41#8].length ∧ 3 < [0x00#8, 0xBE#8, 0xFF#8, 0x41#8].length ∧ 1 % 2 = 3 % 2) := by decide

/-- 0 + 0 and 0 - 0 lie inside the bound, the sum and the difference of the greatest finite values beyond it; the
greatest finite value and 2^970 meet the bound itself, which is an overflow, and the next value below 2^970 does not. -/
theorem witness_SumsAreRoundedOnceToNearest :
    (b64IsFinite 0x0#64 = true ∧ |b64Value 0x0#64 + b64Value 0x0#64| < overflowBound ∧
      |b64Value 0x0#64 - b64Value 0x0#64| < overflowBound) ∧
    (b64IsFinite 0x7FEFFFFFFFFFFFFF#64 = true ∧ b64IsFinite 0xFFEFFFFFFFFFFFFF#64 = true ∧
      overflowBound ≤ b64Value 0x7FEFFFFFFFFFFFFF#64 + b64Value 0x7FEFFFFFFFFFFFFF#64 ∧
      b64Value 0xFFEFFFFFFFFFFFFF#64 + b64Value 0xFFEFFFFFFFFFFFFF#64 ≤ -overflowBound ∧
      overflowBound ≤ b64Value 0x7FEFFFFFFFFFFFFF#64 - b64Value 0xFFEFFFFFFFFFFFFF#64 ∧
      b64Value 0xFFEFFFFFFFFFFFFF#64 - b64Value 0x7FEFFFFFFFFFFFFF#64 ≤ -overflowBound) ∧
    (b64Value 0x7FEFFFFFFFFFFFFF#64 + b64Value 0x7C90000000000000#64 = overflowBound ∧
      b64Value 0xFFEFFFFFFFFFFFFF#64 - b64Value 0x7C90000000000000#64 = -overflowBound ∧
      fadd 0x7FEFFFFFFFFFFFFF#64 0x7C90000000000000#64 = 0x7FF0000000000000#64 ∧
      |b64Value 0x7FEFFFFFFFFFFFFF#64 + b64Value 0x7C8FFFFFFFFFFFFF#64| < overflowBound ∧
      fadd 0x7FEFFFFFFFFFFFFF#64 0x7C8FFFFFFFFFFFFF#64 = 0x7FEFFFFFFFFFFFFF#64) := by decide +kernel

/-- 0 * 0 inside the bound, an overflow beyond it, and a product that is the bound itself:
(2^27 - 1) * 2^500 times (2^27 + 1) * 2^470. -/
theorem witness_ProductsAreRoundedOnceToNearest :
    |b64Value 0x0#64 * b64Value 0x0#64| < overflowBound ∧
    overflowBound ≤ |b64Value 0x7FEFFFFFFFFFFFFF#64 * b64Value 0x4010000000000000#64| ∧
    b64Value 0x60DFFFFFFC000000#64 * b64Value 0x5F00000002000000#64 = overflowBound ∧
    fmul 0x60DFFFFFFC000000#64 0x5F00000002000000#64 = 0x7FF0000000000000#64 := by decide +kernel

/-- +0.0 and +inf, with a valid sample. -/
theorem witness_RttResultsStayNonNegative :
    NonNegative 0x0#64 ∧ NonNegative 0x7FF0000000000000#64 ∧ ValidSampleBits 0x8000000000000000#64 := by
  unfold NonNegative ValidSampleBits; decide

theorem witness_DuplicateFrameIsDeliveredOnce :
    3 ≤ (received .received [0x01#8, 0xFF#8, 0xFE#8] true).rxflen.toNat ∧
    csum16 (rxFrame (received .received [0x01#8, 0xFF#8, 0xFE#8] true)) = 0x0000#16 ∧
    rxByte (received .received [0x01#8, 0xFF#8, 0xFE#8] true) 0 = seqByte true := by decide

/-- A frame of one byte and a corrupt one. -/
theorem witness_LastAcceptedAckIsRejected (f : List Byte) (h : f ∈ [[0x00#8], [0x00#8, 0xBE#8, 0xFF#8, 0x40#8]]) :
    (received .lastAccepted f false).cfg.rxCorruptAck = .lastAccepted ∧
    1 ≤ (received .lastAccepted f false).rxflen.toNat ∧
    ¬(3 ≤ (received .lastAccepted f false).rxflen.toNat ∧ csum16 (rxFrame (received .lastAccepted f false)) = 0x0000#16) ∧
    (acked 0x01#8 false false).seq.txSeq = (received .lastAccepted f false).seq.rxExp ∧
    (acked 0x01#8 false false).ackin.len = 1#2 := by
  refine ⟨rfl, ?_, ?_, rfl, rfl⟩ <;> revert f <;> decide

theorem witness_ReceivedAckLosesTheChunk :
    rxFrame (received .received [0x00#8, 0xBE#8, 0xFF#8, 0x40#8] false) = [0x00#8, 0xBE#8, 0xFF#8, 0x40#8] ∧
    (acked 0x00#8 false false).ackin.len = 1#2 ∧ (acked 0x00#8 false false).ackin.byte0 = 0x00#8 := by decide

theorem witness_RejectedAckKeepsTheFrame :
    ¬((acked 0x01#8 false false).ackin.len = 1#2 ∧ (acked 0x01#8 false false).ackin.byte0 = seqByte false) := by decide

/-- A run in which a chunk is accepted, and one in which a frame is. -/
theorem witness_AcceptedBitsAlternate :
    (∀ e ∈ [HostEvent.wr 0x0000#16 0x00004000#32], OnlyTxcommitFlips e) ∧
    (advancedBits 1 { acked 0x00#8 false true with pending := [.wr 0x0000#16 0x00004000#32] })[0]? = some false ∧
    (∀ e ∈ [HostEvent.wr 0x0000#16 0x00004100#32], OnlyRxcommitFlips e) ∧
    (acceptedBytes 1 { received .received [0x00#8, 0xFF#8, 0xFF#8] false with
      pending := [.wr 0x0000#16 0x00004100#32] })[0]? = some 0x00#8 := by
  refine ⟨?_, by decide, ?_, by decide⟩
  · intro e he; obtain rfl := List.mem_singleton.mp he
    exact ⟨by decide, fun _ => ⟨nofun, nofun⟩⟩
  · intro e he; obtain rfl := List.mem_singleton.mp he
    exact ⟨by decide, fun _ => ⟨nofun, nofun⟩⟩

/-- Two states that differ on the receiver's side alone, and two that differ on the sender's alone. -/
theorem witness_SenderAndReceiverSidesAreIndependent :
    SenderSideEq (base .received) { base .received with rxflen := 1#16 } ∧
    ReceiverSideEq (base .received) { base .received with txplen := 1#16 } :=
  ⟨⟨rfl, rfl, rfl, rfl, rfl, rfl, rfl, rfl, rfl, rfl, rfl, rfl, rfl, rfl, rfl, rfl⟩,
   ⟨rfl, rfl, rfl, rfl, rfl, rfl, rfl, rfl, rfl, rfl, rfl, rfl, rfl⟩⟩

end Sys2Proof.Tests
end

section
/-! No step changes the parameters: what each operation leaves of `cfg`, up to the step. -/

namespace Sys2Proof.Machine

@[simp] theorem rttUpdate_cfg (s : State) : (rttUpdate s).cfg = s.cfg := by rw [rttUpdate_frame]

@[simp] theorem acceptAck_cfg (s : State) : (acceptAck s).cfg = s.cfg := by
  cases h : s.seq.retx
  · simp [acceptAck_first h]
  · simp [acceptAck_retransmitted h]

@[simp] theorem rejectAck_cfg (s : State) : (rejectAck s).cfg = s.cfg := rfl

@[simp] theorem writeReg_cfg (s : State) (r : Reg) (d : Word) : (writeReg s r d).cfg = s.cfg := by
  cases r
  case txlen | rxlen | ackin => simp only [writeReg]; split <;> rfl
  all_goals rfl

@[simp] theorem writeLanes_putTx_cfg (s : State) (size o : Nat) (d : Word) :
    (writeLanes putTx size o d s).cfg = s.cfg := by rw [writeLanes_putTx_frame]

@[simp] theorem writeLanes_putRx_cfg (s : State) (size o : Nat) (d : Word) :
    (writeLanes putRx size o d s).cfg = s.cfg := by rw [writeLanes_putRx_frame]

@[simp] theorem hostRead_cfg (a : Addr) (s : State) : (hostRead a s).cfg = s.cfg := by
  rcases hostRead_cases a s with ⟨-, h⟩ | ⟨-, v, h⟩ <;> rw [h]

/-- No command changes the parameters. TXCOMMIT alone answers by cases, the two outcomes of the comparison. -/
theorem exec_cfg {i : Instr} {s t : State} (h : exec i s = .next t) : t.cfg = s.cfg := by
  cases i
  case txcommit =>
    change execTxcommit s = .next t at h
    cases hm : ackMatches s.ackin s.seq.txSeq
    · obtain rfl := Host.Outcome.next.inj ((execTxcommit_rejects hm).symm.trans h); simp
    · obtain rfl := Host.Outcome.next.inj ((execTxcommit_accepts hm).symm.trans h); simp
  case rttupd => obtain rfl := Host.Outcome.next.inj h; exact rttUpdate_cfg s
  all_goals obtain rfl := Host.Outcome.next.inj h; rfl

theorem perform_cfg {d : Word} {s t : State} (h : perform d s = .next t) : t.cfg = s.cfg := by
  unfold perform at h
  split at h
  · exact exec_cfg h
  · obtain rfl := Host.Outcome.next.inj h; rfl

theorem hostWrite_cfg {a : Addr} {d : Word} {s t : State} (h : hostWrite a d s = .next t) : t.cfg = s.cfg := by
  rcases hostWrite_cases a d s with ⟨-, hw⟩ | ⟨-, hw⟩ | ⟨-, hw⟩ | ⟨r, -, -, hw⟩ | ⟨o, -, hw⟩ | ⟨o, -, hw⟩ <;>
    rw [hw] at h
  case inr.inr.inl => exact perform_cfg (s := { s with cmdLast := d }) h
  all_goals obtain rfl := Host.Outcome.next.inj h; simp

/-- R8: the parameters are fixed. -/
theorem step_cfg {s t : State} (h : step s = .next t) : t.cfg = s.cfg := by
  rcases step_cases s with ⟨-, hs⟩ | ⟨rest, -, hs⟩ | ⟨rest, -, hs⟩ | ⟨e, rest, -, -, -, hs⟩ | ⟨a, rest, -, -, hs⟩ |
    ⟨a, d, rest, -, -, hs⟩ <;> rw [hs] at h
  case inr.inr.inr.inr.inr => simpa using hostWrite_cfg h
  all_goals obtain rfl := Host.Outcome.next.inj h; simp

/-- MAXPKT reads a parameter and nothing else (R36). -/
theorem readReg_maxpkt_of_cfg {s t : State} (h : t.cfg = s.cfg) : readReg t .maxpkt = readReg s .maxpkt := by
  simp only [readReg, maxPacket, h]

/-- Settles O13: every case of a step keeps `cfg`, and MAXPKT reads only that. -/
theorem noStepChangesParameters : Obligations.NoStepChangesParameters :=
  fun _ _ h => ⟨step_cfg h, readReg_maxpkt_of_cfg (step_cfg h)⟩

end Sys2Proof.Machine
end

section
/-! The bits of a binary64 encoding below its sign: the magnitude they stand for, in units of 2^-1074, and its order. -/

namespace Sys2Proof.Machine

/-- Bits 62:0 of an encoding, as a number. -/
def b64Bits (a : Dword) : Nat := a.toNat % 2 ^ 63

/-- The magnitude that bits 62:0 stand for, in units of 2^-1074, as if the exponent field had no upper end. -/
def magOfBits (bits : Nat) : Nat :=
  if bits / 2 ^ 52 = 0 then bits % 2 ^ 52 else (2 ^ 52 + bits % 2 ^ 52) * 2 ^ (bits / 2 ^ 52 - 1)

theorem b64Exp_eq (a : Dword) : b64Exp a = b64Bits a / 2 ^ 52 := by
  simp only [b64Exp, b64Bits, BitVec.extractLsb'_toNat, Nat.shiftRight_eq_div_pow]; omega

theorem b64Frac_eq (a : Dword) : b64Frac a = b64Bits a % 2 ^ 52 := by
  simp only [b64Frac, b64Bits, BitVec.extractLsb'_toNat, Nat.shiftRight_eq_div_pow]; omega

theorem b64Mag_eq (a : Dword) : b64Mag a = magOfBits (b64Bits a) := by
  simp only [b64Mag, magOfBits, b64Exp_eq, b64Frac_eq]

/-- The finite encodings are those whose bits 62:0 are below an infinity's. -/
theorem b64IsFinite_iff (a : Dword) : b64IsFinite a = true ↔ b64Bits a < b64InfBits := by
  simp only [b64IsFinite, b64Exp_eq, bne_iff_ne, b64InfBits, b64Bits]; omega

theorem b64IsNaN_of_finite {a : Dword} (h : b64IsFinite a = true) : b64IsNaN a = false := by
  simp_all [b64IsFinite, b64IsNaN]

theorem b64IsInf_of_finite {a : Dword} (h : b64IsFinite a = true) : b64IsInf a = false := by
  simp_all [b64IsFinite, b64IsInf]

/-- A significand of at most 53 bits, `d` places up, with its encoding: the leading bit of a normal significand adds 1
to the exponent field, and 2^53 carries into the next exponent. -/
theorem magOfBits_add_mul {m d : Nat} (hm : m ≤ 2 ^ 53) (hd : d = 0 ∨ 2 ^ 52 ≤ m) :
    magOfBits (m + d * 2 ^ 52) = m * 2 ^ d := by
  unfold magOfBits
  obtain hsub | hnormal | htop : m < 2 ^ 52 ∨ (2 ^ 52 ≤ m ∧ m < 2 ^ 53) ∨ m = 2 ^ 53 := by omega
  · obtain rfl : d = 0 := by omega
    simp only [Nat.zero_mul, Nat.add_zero, Nat.pow_zero, Nat.mul_one]
    rw [if_pos (Nat.div_eq_of_lt hsub), Nat.mod_eq_of_lt hsub]
  · have hexp : (m + d * 2 ^ 52) / 2 ^ 52 = d + 1 := by omega
    have hfrac : 2 ^ 52 + (m + d * 2 ^ 52) % 2 ^ 52 = m := by omega
    rw [if_neg (by omega), hexp, hfrac, Nat.add_sub_cancel]
  · have hexp : (m + d * 2 ^ 52) / 2 ^ 52 = d + 2 := by omega
    have hfrac : 2 ^ 52 + (m + d * 2 ^ 52) % 2 ^ 52 = 2 ^ 52 := by omega
    rw [if_neg (by omega), hexp, hfrac, htop, Nat.add_sub_cancel (m := 1), pow_succ]; ring

/-- All encodings come about that way. -/
theorem exists_significand (bits : Nat) : ∃ m d, bits = m + d * 2 ^ 52 ∧ m < 2 ^ 53 ∧ (d = 0 ∨ 2 ^ 52 ≤ m) := by
  by_cases h : bits < 2 ^ 52
  · exact ⟨bits, 0, by omega, by omega, .inl rfl⟩
  · exact ⟨2 ^ 52 + bits % 2 ^ 52, bits / 2 ^ 52 - 1, by omega, by omega, .inr (by omega)⟩

/-- The encodings are in the order of their magnitudes. -/
theorem magOfBits_strictMono : StrictMono magOfBits := by
  refine strictMono_nat_of_lt_succ fun bits => ?_
  obtain ⟨m, d, rfl, hm, hd⟩ := exists_significand bits
  rw [add_right_comm, magOfBits_add_mul hm.le hd, magOfBits_add_mul (by omega) (by omega)]
  exact Nat.mul_lt_mul_of_pos_right (Nat.lt_succ_self m) (by positivity)

@[simp] theorem magOfBits_zero : magOfBits 0 = 0 := rfl

/-! ### The parts of a packed value -/

theorem b64Bits_pack (neg : Bool) {bits : Nat} (h : bits ≤ b64InfBits) : b64Bits (b64Pack neg bits) = bits := by
  rw [b64Bits, b64Pack_toNat]; simp only [b64InfBits] at h; omega

@[simp] theorem b64Neg_pack (neg : Bool) (bits : Nat) : b64Neg (b64Pack neg bits) = neg := by
  rw [b64Neg, BitVec.getLsbD, b64Pack_toNat, Nat.testBit_eq_decide_div_mod_eq]
  cases neg <;> simp

/-- The last place of an encoding. -/
theorem getLsbD_zero_eq (a : Dword) : a.getLsbD 0 = decide (b64Bits a % 2 = 1) := by
  rw [BitVec.getLsbD, Nat.testBit_zero, b64Bits]; congr 1; simp only [eq_iff_iff]; omega

theorem fneg_eq_pack (a : Dword) : fneg a = b64Pack (!b64Neg a) (b64Bits a) := by
  rw [fneg, b64Pack]; congr 1; apply BitVec.eq_of_toNat_eq; simp [b64Bits]

theorem b64Bits_fneg (a : Dword) : b64Bits (fneg a) = b64Bits a := by
  rw [fneg_eq_pack, b64Bits, b64Pack_toNat, b64Bits]; omega

end Sys2Proof.Machine
end

section
/-! Rounding to nearest, ties to even, of a magnitude. -/

namespace Sys2Proof.Machine

/-- `c` is the encoding nearest to `x` units of 2^-1074 (`x` not negative), and even where another is as near. -/
def IsNearestBits (x : ℚ) (c : Nat) : Prop :=
  ∀ v, |x - magOfBits c| ≤ |x - magOfBits v| ∧ (|x - magOfBits v| = |x - magOfBits c| → v ≠ c → c % 2 = 0)

theorem cast_magOfBits_strictMono : StrictMono fun v => (magOfBits v : ℚ) :=
  Nat.strictMono_cast.comp magOfBits_strictMono

/-- Between two neighbours, the lower one is nearest up to their midpoint. -/
theorem isNearestBits_lower {x : ℚ} {c : Nat} (hc : magOfBits c ≤ x)
    (hmid : 2 * x < magOfBits c + magOfBits (c + 1) ∨
      2 * x = magOfBits c + magOfBits (c + 1) ∧ c % 2 = 0) : IsNearestBits x c := by
  intro v
  rw [abs_of_nonneg (sub_nonneg.mpr hc)]
  obtain hv | rfl | hv := lt_trichotomy v c
  · have hlt : (magOfBits v : ℚ) < magOfBits c := cast_magOfBits_strictMono hv
    rw [abs_of_pos (by linarith)]
    exact ⟨by linarith, fun h => by linarith⟩
  · rw [abs_of_nonneg (sub_nonneg.mpr hc)]
    exact ⟨le_rfl, fun _ h => absurd rfl h⟩
  · have hle : (magOfBits (c + 1) : ℚ) ≤ magOfBits v := cast_magOfBits_strictMono.monotone hv
    obtain hmid | ⟨hmid, heven⟩ := hmid
    · rw [abs_of_nonpos (by linarith)]
      exact ⟨by linarith, fun h => by linarith⟩
    · rw [abs_of_nonpos (by linarith)]
      exact ⟨by linarith, fun _ _ => heven⟩

/-- Between two neighbours, the upper one is nearest from their midpoint on. -/
theorem isNearestBits_upper {x : ℚ} {c : Nat} (hc : x ≤ magOfBits (c + 1))
    (hmid : magOfBits c + magOfBits (c + 1) < 2 * x ∨
      2 * x = magOfBits c + magOfBits (c + 1) ∧ c % 2 = 1) : IsNearestBits x (c + 1) := by
  intro v
  rw [abs_of_nonpos (sub_nonpos.mpr hc)]
  obtain hv | rfl | hv := lt_trichotomy v (c + 1)
  · have hle : (magOfBits v : ℚ) ≤ magOfBits c := cast_magOfBits_strictMono.monotone (Nat.lt_succ_iff.mp hv)
    obtain hmid | ⟨hmid, hodd⟩ := hmid
    · rw [abs_of_nonneg (by linarith)]
      exact ⟨by linarith, fun h => by linarith⟩
    · rw [abs_of_nonneg (by linarith)]
      exact ⟨by linarith, fun _ _ => by omega⟩
  · rw [abs_of_nonpos (sub_nonpos.mpr hc)]
    exact ⟨le_rfl, fun _ h => absurd rfl h⟩
  · have hlt : (magOfBits (c + 1) : ℚ) < magOfBits v := cast_magOfBits_strictMono hv
    rw [abs_of_neg (by linarith)]
    exact ⟨by linarith, fun h => by linarith⟩

/-! ### What b64Round computes -/

/-- How many low bits of `n` lie below the last place of the rounded `n / 2^k`. -/
def roundShift (n k : Nat) : Nat := k + (n.log2 + 1 - (k + 53))

/-- The encoding of `n / 2^k` units with the bits below its last place cut off, the exponent field without an end. -/
def truncBits (n k : Nat) : Nat := n / 2 ^ roundShift n k + (roundShift n k - k) * 2 ^ 52

/-- Whether `n / 2^k` is rounded up from there: more than half a last place is cut off, or half of one and the last
place is odd. -/
def RoundsUp (n k : Nat) : Prop :=
  2 ^ roundShift n k < 2 * (n % 2 ^ roundShift n k) ∨
  2 * (n % 2 ^ roundShift n k) = 2 ^ roundShift n k ∧ truncBits n k % 2 = 1

theorem truncBits_mod_two (n k : Nat) : truncBits n k % 2 = n / 2 ^ roundShift n k % 2 := by unfold truncBits; omega

theorem b64Round_of_roundsUp {n k : Nat} (h : RoundsUp n k) :
    b64Round n k = min (truncBits n k + 1) b64InfBits := by
  rw [RoundsUp, truncBits_mod_two] at h
  rw [truncBits, add_right_comm]
  simp only [b64Round, roundShift] at *
  rw [if_pos (by simpa using h)]

theorem b64Round_of_not_roundsUp {n k : Nat} (h : ¬ RoundsUp n k) : b64Round n k = min (truncBits n k) b64InfBits := by
  rw [RoundsUp, truncBits_mod_two] at h
  rw [truncBits]
  simp only [b64Round, roundShift] at *
  rw [if_neg (by simpa using h), Nat.add_zero]

/-- The significand left after the cut has at most 53 bits, and 53 of them unless the result is subnormal. -/
theorem significand_bounds (n k : Nat) :
    n / 2 ^ roundShift n k < 2 ^ 53 ∧ (roundShift n k - k = 0 ∨ 2 ^ 52 ≤ n / 2 ^ roundShift n k) := by
  constructor
  · rw [Nat.div_lt_iff_lt_mul (by positivity), ← pow_add]
    exact Nat.lt_log2_self.trans_le (Nat.pow_le_pow_right two_pos (by unfold roundShift; omega))
  · by_cases h : n.log2 + 1 ≤ k + 53
    · left; unfold roundShift; omega
    · right
      rw [Nat.le_div_iff_mul_le (by positivity), ← pow_add]
      have hn : n ≠ 0 := by rintro rfl; simp at h
      have : 52 + roundShift n k = n.log2 := by unfold roundShift; omega
      rw [this]; exact Nat.log2_self_le hn

theorem le_roundShift (n k : Nat) : k ≤ roundShift n k := Nat.le_add_right _ _

/-- `n / 2^k` lies `n % 2^q` parts of a last place of `2^q` parts above the truncated value, `q` the shift. -/
theorem div_sub_magOfBits_truncBits (n k : Nat) :
    (n / 2 ^ k : ℚ) - magOfBits (truncBits n k) = (n % 2 ^ roundShift n k : ℕ) / 2 ^ k := by
  obtain ⟨hlt, hnormal⟩ := significand_bounds n k
  have hn : (n : ℚ) = 2 ^ roundShift n k * (n / 2 ^ roundShift n k : ℕ) + (n % 2 ^ roundShift n k : ℕ) := by
    exact_mod_cast (Nat.div_add_mod n (2 ^ roundShift n k)).symm
  have hpow : (2 : ℚ) ^ roundShift n k = 2 ^ (roundShift n k - k) * 2 ^ k := by
    rw [← pow_add, Nat.sub_add_cancel (le_roundShift n k)]
  rw [truncBits, magOfBits_add_mul hlt.le hnormal]
  field_simp
  push_cast
  rw [hpow] at hn
  linear_combination hn

/-- The next encoding is one last place up. -/
theorem magOfBits_truncBits_succ (n k : Nat) :
    (magOfBits (truncBits n k + 1) : ℚ) = magOfBits (truncBits n k) + 2 ^ roundShift n k / 2 ^ k := by
  obtain ⟨hlt, hnormal⟩ := significand_bounds n k
  rw [truncBits, magOfBits_add_mul hlt.le hnormal, add_right_comm, magOfBits_add_mul (by omega) (by omega),
    div_eq_mul_inv, ← pow_sub₀ _ two_ne_zero (le_roundShift n k)]
  push_cast; ring

/-- b64Round is the nearest encoding, ties to even, clipped at the infinity. -/
theorem b64Round_nearest (n k : Nat) : ∃ c, b64Round n k = min c b64InfBits ∧ IsNearestBits (n / 2 ^ k) c := by
  have hcut := div_sub_magOfBits_truncBits n k
  have hsucc := magOfBits_truncBits_succ n k
  have hpos : (0 : ℚ) < 2 ^ k := by positivity
  have hmid : 2 * (n / 2 ^ k : ℚ) - (magOfBits (truncBits n k) + magOfBits (truncBits n k + 1)) =
      ((2 * (n % 2 ^ roundShift n k) : ℕ) - (2 ^ roundShift n k : ℕ)) / 2 ^ k := by
    push_cast; linear_combination 2 * hcut - hsucc
  by_cases h : RoundsUp n k
  · refine ⟨_, b64Round_of_roundsUp h, isNearestBits_upper ?_ ?_⟩
    · have hmod : (n % 2 ^ roundShift n k : ℕ) ≤ (2 : ℚ) ^ roundShift n k := by
        exact_mod_cast (Nat.mod_lt n (by positivity)).le
      have := div_le_div_of_nonneg_right hmod hpos.le
      linarith
    · obtain hup | ⟨htie, hodd⟩ := h
      · left
        rw [← sub_pos, hmid]
        exact div_pos (sub_pos.mpr (Nat.cast_lt.mpr hup)) hpos
      · exact .inr ⟨by rw [← sub_eq_zero, hmid, htie, sub_self, zero_div], hodd⟩
  · refine ⟨_, b64Round_of_not_roundsUp h, isNearestBits_lower ?_ ?_⟩
    · rw [← sub_nonneg, hcut]; positivity
    · obtain ⟨hle, htie⟩ := not_or.mp h
      obtain hlt | heq := (not_lt.mp hle).lt_or_eq
      · left
        rw [← sub_neg, hmid]
        exact div_neg_of_neg_of_pos (sub_neg.mpr (Nat.cast_lt.mpr hlt)) hpos
      · have heven : truncBits n k % 2 = 0 := by have := not_and.mp htie heq; omega
        exact .inr ⟨by rw [← sub_eq_zero, hmid, heq, sub_self, zero_div], heven⟩

/-! ### Overflow -/

/-- The overflow bound in units of 2^-1074. -/
def overflowUnits : ℚ := overflowBound * 2 ^ 1074

theorem magOfBits_maxFinite : magOfBits (b64InfBits - 1) = (2 ^ 53 - 1) * 2 ^ 2045 := by
  rw [← magOfBits_add_mul (m := 2 ^ 53 - 1) (d := 2045) (by decide) (by decide)]; rfl

theorem magOfBits_infBits : magOfBits b64InfBits = 2 ^ 53 * 2 ^ 2045 := by
  rw [← magOfBits_add_mul (m := 2 ^ 53) (d := 2045) (by decide) (by decide)]; rfl

/-- The bound is the midpoint of the greatest finite value and the next encoding, which is the infinity's. -/
theorem two_mul_overflowUnits :
    2 * overflowUnits = magOfBits (b64InfBits - 1) + magOfBits b64InfBits := by
  have hbound : overflowBound = (2 ^ 54 - 1) * 2 ^ 970 := by
    rw [overflowBound, sub_mul, ← pow_add, one_mul]
  have hscale : (2 : ℚ) ^ 2045 = 2 ^ 970 * 2 ^ 1074 * 2 := by rw [← pow_add, ← pow_succ]
  rw [magOfBits_maxFinite, magOfBits_infBits, overflowUnits, hbound, Nat.cast_mul, Nat.cast_mul, Nat.cast_pow 2 2045,
    Nat.cast_two, hscale]
  generalize (2 : ℚ) ^ 970 = v, (2 : ℚ) ^ 1074 = w
  push_cast
  ring

theorem maxFinite_lt_infBits : (magOfBits (b64InfBits - 1) : ℚ) < magOfBits b64InfBits :=
  cast_magOfBits_strictMono (by decide)

theorem IsNearestBits.finite_of_lt {x : ℚ} {c : Nat} (h : IsNearestBits x c) (hx : x < overflowUnits) :
    c < b64InfBits := by
  by_contra! hc
  have hmid := two_mul_overflowUnits
  have hgap := maxFinite_lt_infBits
  have hmono : (magOfBits b64InfBits : ℚ) ≤ magOfBits c := cast_magOfBits_strictMono.monotone hc
  have hnear := (h (b64InfBits - 1)).1
  rw [abs_of_neg (by linarith)] at hnear
  have : |x - magOfBits (b64InfBits - 1)| < magOfBits c - x := abs_lt.mpr ⟨by linarith, by linarith⟩
  linarith

theorem IsNearestBits.overflow_of_le {x : ℚ} {c : Nat} (h : IsNearestBits x c) (hx : overflowUnits ≤ x) :
    b64InfBits ≤ c := by
  by_contra! hc
  have hmid := two_mul_overflowUnits
  have hgap := maxFinite_lt_infBits
  obtain ⟨hnear, htie⟩ := h b64InfBits
  obtain hlt | rfl : c < b64InfBits - 1 ∨ c = b64InfBits - 1 := by omega
  · have hmono : (magOfBits c : ℚ) < magOfBits (b64InfBits - 1) := cast_magOfBits_strictMono hlt
    have hback : |x - magOfBits b64InfBits| < x - magOfBits c := abs_lt.mpr ⟨by linarith, by linarith⟩
    exact absurd (hback.trans_le (le_abs_self _)) hnear.not_gt
  · have hback : |x - magOfBits b64InfBits| ≤ x - magOfBits (b64InfBits - 1) := abs_le.mpr ⟨by linarith, by linarith⟩
    exact absurd (htie (le_antisymm (hback.trans (le_abs_self _)) hnear) (by decide)) (by decide)

end Sys2Proof.Machine
end

section
/-! Rounding with a sign, and the sums and products of finite values. -/

namespace Sys2Proof.Machine

/-- The factor of a sign bit. -/
def signFactor (neg : Bool) : ℚ := if neg then -1 else 1

@[simp] theorem signFactor_false : signFactor false = 1 := rfl

@[simp] theorem signFactor_true : signFactor true = -1 := rfl

theorem abs_signFactor (neg : Bool) : |signFactor neg| = 1 := by cases neg <;> simp

theorem signFactor_of_ne {neg neg' : Bool} (h : neg ≠ neg') : signFactor neg' = -signFactor neg := by
  rw [Bool.eq_not_of_ne h.symm]; cases neg <;> simp

theorem signFactor_bne (neg neg' : Bool) : signFactor (neg != neg') = signFactor neg * signFactor neg' := by
  cases neg <;> cases neg' <;> simp

theorem b64Value_eq (v : Dword) :
    b64Value v = signFactor (b64Neg v) * magOfBits (b64Bits v) / 2 ^ 1074 := by
  rw [b64Value, b64Mag_eq, signFactor]

theorem b64Value_fneg (b : Dword) : b64Value (fneg b) = -b64Value b := by
  rw [b64Value_eq, b64Value_eq, b64Bits_fneg, fneg_eq_pack, b64Neg_pack]
  cases b64Neg b <;> simp [neg_div]

theorem b64IsFinite_fneg {b : Dword} (h : b64IsFinite b = true) : b64IsFinite (fneg b) = true := by
  rw [b64IsFinite_iff] at h ⊢; rwa [b64Bits_fneg]

theorem abs_signed_sub_signed (neg neg' : Bool) (x y : ℚ) :
    |signFactor neg * x - signFactor neg' * y| = if neg' = neg then |x - y| else |x + y| := by
  cases neg <;> cases neg'
  case true.true => rw [← abs_neg]; simp [sub_eq_add_neg, add_comm]
  case true.false => rw [← abs_neg]; simp [add_comm]
  all_goals simp

/-- The distance of an encoding's value from a signed number, by whether the signs agree. -/
theorem abs_signed_sub_b64Value (neg : Bool) (x : ℚ) (v : Dword) :
    |signFactor neg * x / 2 ^ 1074 - b64Value v| =
      (if b64Neg v = neg then |x - magOfBits (b64Bits v)| else |x + magOfBits (b64Bits v)|) / 2 ^ 1074 := by
  have hscale : |(2 : ℚ) ^ 1074| = 2 ^ 1074 := abs_of_pos (by positivity)
  rw [b64Value_eq, ← sub_div, abs_div, hscale, abs_signed_sub_signed]

/-- With a sign the distance is no less than that of the magnitudes. -/
theorem abs_sub_mag_le (neg : Bool) {x : ℚ} (hx : 0 ≤ x) (v : Dword) :
    |x - magOfBits (b64Bits v)| / 2 ^ 1074 ≤ |signFactor neg * x / 2 ^ 1074 - b64Value v| := by
  rw [abs_signed_sub_b64Value]
  refine div_le_div_of_nonneg_right ?_ (by positivity)
  have hmag : (0 : ℚ) ≤ magOfBits (b64Bits v) := Nat.cast_nonneg _
  split
  · exact le_rfl
  · rw [abs_of_nonneg (add_nonneg hx hmag)]
    exact abs_le.mpr ⟨by linarith, by linarith⟩

/-- The nearest encoding to `x` is also nearest with a sign: a value of the other sign is no nearer than the one of the
same magnitude, and as near only where both are zeros. -/
theorem IsNearestBits.isNearestEven_pack {x : ℚ} {c : Nat} (h : IsNearestBits x c) (hx : 0 ≤ x) (neg : Bool)
    (hc : c < b64InfBits) : IsNearestEven (signFactor neg * x / 2 ^ 1074) (b64Pack neg c) := by
  have hscale : (0 : ℚ) < 2 ^ 1074 := by positivity
  have hbits := b64Bits_pack neg hc.le
  have hself : |signFactor neg * x / 2 ^ 1074 - b64Value (b64Pack neg c)| = |x - magOfBits c| / 2 ^ 1074 := by
    rw [abs_signed_sub_b64Value, b64Neg_pack, if_pos rfl, hbits]
  refine ⟨(b64IsFinite_iff _).mpr (by rwa [hbits]), fun v _ => ?_, fun v _ htie hne => ?_⟩
  · rw [hself]
    exact (div_le_div_of_nonneg_right (h _).1 hscale.le).trans (abs_sub_mag_le neg hx v)
  · rw [hself] at htie
    have heven : c % 2 = 0 := by
      by_cases hv : b64Bits v = c
      · have hsign : b64Neg v ≠ neg := by
          rintro rfl; exact hne (by rw [b64Value_eq, b64Value_eq, b64Neg_pack, hbits, hv])
        rw [abs_signed_sub_b64Value, if_neg hsign, hv, div_left_inj' hscale.ne'] at htie
        have hzero := (h 0).1
        rw [← htie, magOfBits_zero, Nat.cast_zero, sub_zero, abs_of_nonneg hx] at hzero
        have hmag : (magOfBits c : ℚ) ≤ magOfBits 0 := by
          rw [magOfBits_zero, Nat.cast_zero]; linarith [le_abs_self (x + magOfBits c)]
        rw [Nat.le_zero.mp (cast_magOfBits_strictMono.le_iff_le.mp hmag)]
      · have hle := (div_le_div_iff_of_pos_right hscale).mp ((abs_sub_mag_le neg hx v).trans_eq htie)
        exact (h _).2 (le_antisymm hle (h _).1) hv
    rw [getLsbD_zero_eq, hbits, heven]; rfl

/-! ### One rounding, overflow included -/

/-- `r` is `x` rounded once: to nearest even below the overflow bound, the infinity of the sign of `x` from there on. -/
def RoundsTo (x : ℚ) (r : Dword) : Prop :=
  (|x| < overflowBound → IsNearestEven x r) ∧
  (overflowBound ≤ x → r = 0x7FF0000000000000#64) ∧
  (x ≤ -overflowBound → r = 0xFFF0000000000000#64)

theorem overflowBound_pos : 0 < overflowBound := by
  rw [overflowBound]; exact sub_pos.mpr (pow_lt_pow_right₀ one_lt_two (by decide))

theorem overflowUnits_le_iff (x : ℚ) : overflowUnits ≤ x ↔ overflowBound ≤ x / 2 ^ 1074 :=
  (le_div_iff₀ (by positivity)).symm

/-- A signed number in overflow has the sign of that overflow. -/
theorem overflow_pos {neg : Bool} {y : ℚ} (hy : 0 ≤ y) (h : overflowBound ≤ signFactor neg * y) :
    neg = false ∧ overflowBound ≤ y := by
  have hbound := overflowBound_pos
  cases neg
  · exact ⟨rfl, by simpa using h⟩
  · rw [signFactor_true] at h; linarith

theorem overflow_neg {neg : Bool} {y : ℚ} (hy : 0 ≤ y) (h : signFactor neg * y ≤ -overflowBound) :
    neg = true ∧ overflowBound ≤ y := by
  have hbound := overflowBound_pos
  cases neg
  · rw [signFactor_false] at h; linarith
  · exact ⟨rfl, by simpa using h⟩

/-- Packing b64Round with a sign rounds the signed number `± n / 2^k` units once. -/
theorem b64Pack_b64Round_roundsTo (neg : Bool) (n k : Nat) :
    RoundsTo (signFactor neg * (n / 2 ^ k) / 2 ^ 1074) (b64Pack neg (b64Round n k)) := by
  obtain ⟨c, hround, hnear⟩ := b64Round_nearest n k
  have hx : (0 : ℚ) ≤ n / 2 ^ k := by positivity
  have hy : (0 : ℚ) ≤ n / 2 ^ k / 2 ^ 1074 := by positivity
  have hinf (h : overflowBound ≤ (n / 2 ^ k / 2 ^ 1074 : ℚ)) : min c b64InfBits = b64InfBits :=
    min_eq_right (hnear.overflow_of_le ((overflowUnits_le_iff _).mpr h))
  rw [hround]
  refine ⟨fun hlt => ?_, fun hle => ?_, fun hle => ?_⟩
  · rw [mul_div_assoc, abs_mul, abs_signFactor, one_mul, abs_of_nonneg hy] at hlt
    have hc := hnear.finite_of_lt (not_le.mp fun hle => hlt.not_ge ((overflowUnits_le_iff _).mp hle))
    rw [min_eq_left hc.le]
    exact hnear.isNearestEven_pack hx neg hc
  · rw [mul_div_assoc] at hle
    obtain ⟨rfl, hbig⟩ := overflow_pos hy hle
    rw [hinf hbig]; rfl
  · rw [mul_div_assoc] at hle
    obtain ⟨rfl, hbig⟩ := overflow_neg hy hle
    rw [hinf hbig]; rfl

/-! ### Sums and products of finite values -/

/-- fadd of finite values packs the rounded magnitude of their exact sum with its sign, +0.0 for an exact zero of
opposite signs. -/
theorem fadd_eq_pack {a b : Dword} (ha : b64IsFinite a = true) (hb : b64IsFinite b = true) :
    ∃ neg n, fadd a b = b64Pack neg (b64Round n 0) ∧
      signFactor (b64Neg a) * b64Mag a + signFactor (b64Neg b) * b64Mag b = signFactor neg * (n : ℚ) := by
  simp only [fadd, b64IsNaN_of_finite, b64IsInf_of_finite, ha, hb, Bool.or_self, Bool.false_eq_true, if_false]
  split
  · next hsign =>
    refine ⟨_, _, rfl, ?_⟩
    rw [← hsign, Nat.cast_add, mul_add]
  · next hsign =>
    rw [signFactor_of_ne hsign]
    obtain hlt | heq | hlt := lt_trichotomy (b64Mag b) (b64Mag a)
    · refine ⟨b64Neg a, b64Mag a - b64Mag b, by rw [if_neg hlt.ne', if_pos hlt], ?_⟩
      rw [Nat.cast_sub hlt.le]; ring
    · refine ⟨false, 0, by rw [if_pos heq.symm]; rfl, ?_⟩
      rw [heq, Nat.cast_zero]; ring
    · refine ⟨b64Neg b, b64Mag b - b64Mag a, by rw [if_neg hlt.ne, if_neg hlt.not_gt], ?_⟩
      rw [Nat.cast_sub hlt.le, signFactor_of_ne hsign]; ring

theorem fadd_roundsTo {a b : Dword} (ha : b64IsFinite a = true) (hb : b64IsFinite b = true) :
    RoundsTo (b64Value a + b64Value b) (fadd a b) := by
  obtain ⟨neg, n, hadd, hsum⟩ := fadd_eq_pack ha hb
  have hval : b64Value a + b64Value b = signFactor neg * (n / 2 ^ 0) / 2 ^ 1074 := by
    rw [b64Value_eq, b64Value_eq, ← b64Mag_eq, ← b64Mag_eq, ← add_div, hsum, pow_zero, div_one]
  rw [hadd, hval]
  exact b64Pack_b64Round_roundsTo neg n 0

/-- fmul of finite values packs the rounded magnitude of their exact product with its sign. -/
theorem fmul_eq_of_finite {a b : Dword} (ha : b64IsFinite a = true) (hb : b64IsFinite b = true) :
    fmul a b = b64Pack (b64Neg a != b64Neg b) (b64Round (b64Mag a * b64Mag b) 1074) := by
  simp [fmul, b64IsNaN_of_finite, b64IsInf_of_finite, ha, hb]

theorem fmul_roundsTo {a b : Dword} (ha : b64IsFinite a = true) (hb : b64IsFinite b = true) :
    RoundsTo (b64Value a * b64Value b) (fmul a b) := by
  have hval : b64Value a * b64Value b =
      signFactor (b64Neg a != b64Neg b) * ((b64Mag a * b64Mag b : ℕ) / 2 ^ 1074) / 2 ^ 1074 := by
    rw [b64Value_eq, b64Value_eq, signFactor_bne, b64Mag_eq, b64Mag_eq, Nat.cast_mul]
    generalize (2 : ℚ) ^ 1074 = u
    ring
  rw [fmul_eq_of_finite ha hb, hval]
  exact b64Pack_b64Round_roundsTo _ _ _

/-- Settles O47: fsub is fadd of the negated operand, so both are one rounding of an exact sum. -/
theorem sumsAreRoundedOnceToNearest : Obligations.SumsAreRoundedOnceToNearest := by
  intro a b ha hb
  obtain ⟨hadd, haddPos, haddNeg⟩ := fadd_roundsTo ha hb
  have hsub := fadd_roundsTo ha (b64IsFinite_fneg hb)
  rw [b64Value_fneg, ← sub_eq_add_neg] at hsub
  obtain ⟨hsub, hsubPos, hsubNeg⟩ := hsub
  exact ⟨hadd, haddPos, haddNeg, hsub, hsubPos, hsubNeg⟩

theorem RoundsTo.isInf_of_overflow {x : ℚ} {r : Dword} (h : RoundsTo x r) (hx : overflowBound ≤ |x|) :
    b64IsInf r = true := by
  obtain ⟨-, hpos, hneg⟩ := h
  obtain hx | hx := le_abs'.mp hx
  · rw [hneg hx]; rfl
  · rw [hpos hx]; rfl

/-- Settles O48: one rounding of the exact product, with the sign fmul packs. -/
theorem productsAreRoundedOnceToNearest : Obligations.ProductsAreRoundedOnceToNearest := by
  intro a b ha hb
  have hround := fmul_roundsTo ha hb
  have hsign : b64Neg (fmul a b) = (b64Neg a != b64Neg b) := by rw [fmul_eq_of_finite ha hb, b64Neg_pack]
  exact ⟨hround.1, hround.isInf_of_overflow, hsign⟩

end Sys2Proof.Machine
end

section
/-! R177: the RTT update keeps EST and DEV +0.0 or positive. A product with a positive constant keeps the sign, and a sum
with a term that is +0.0 or positive is so too, where the other term is at least a zero of either sign. -/

namespace Sys2Proof.Machine

/-- A zero of either sign or a positive value, +inf among them: what a valid sample and its multiples are (R172). -/
def AtLeastZero (v : Dword) : Prop := b64Bits v ≤ b64InfBits ∧ (b64Neg v = true → b64Bits v = 0)

/-- A finite value above zero: what the constants of R171 are. -/
def FinitePositive (c : Dword) : Prop := b64IsFinite c = true ∧ b64Neg c = false ∧ b64Bits c ≠ 0

/-! ### The classes of encodings, by sign and bits 62:0 -/

theorem b64Neg_eq (v : Dword) : b64Neg v = decide (2 ^ 63 ≤ v.toNat) := by
  have hlt := v.isLt
  rw [b64Neg, BitVec.getLsbD, Nat.testBit_eq_decide_div_mod_eq, decide_eq_decide]; omega

theorem nonNegative_iff (v : Dword) : NonNegative v ↔ b64Neg v = false ∧ b64Bits v ≤ b64InfBits := by
  have hlt := v.isLt
  rw [NonNegative, b64Neg_eq, decide_eq_false_iff_not, b64Bits, b64InfBits]; omega

theorem NonNegative.atLeastZero {v : Dword} (h : NonNegative v) : AtLeastZero v := by
  obtain ⟨hpos, hbits⟩ := (nonNegative_iff v).mp h
  exact ⟨hbits, by simp [hpos]⟩

theorem AtLeastZero.nonNegative {v : Dword} (h : AtLeastZero v) (hpos : b64Neg v = false) : NonNegative v :=
  (nonNegative_iff v).mpr ⟨hpos, h.1⟩

theorem b64IsNaN_iff (v : Dword) : b64IsNaN v = true ↔ b64InfBits < b64Bits v := by
  have hlt : b64Bits v < 2 ^ 63 := Nat.mod_lt _ (by decide)
  simp only [b64IsNaN, b64Exp_eq, b64Frac_eq, b64InfBits, Bool.and_eq_true, beq_iff_eq, bne_iff_ne]; omega

theorem b64IsNaN_of_le {v : Dword} (h : b64Bits v ≤ b64InfBits) : b64IsNaN v = false := by
  rw [← Bool.not_eq_true, b64IsNaN_iff]; exact not_lt.mpr h

theorem b64IsInf_iff (v : Dword) : b64IsInf v = true ↔ b64Bits v = b64InfBits := by
  have hlt : b64Bits v < 2 ^ 63 := Nat.mod_lt _ (by decide)
  simp only [b64IsInf, b64Exp_eq, b64Frac_eq, b64InfBits, Bool.and_eq_true, beq_iff_eq]; omega

theorem b64IsZero_iff (v : Dword) : b64IsZero v = true ↔ b64Bits v = 0 := by
  rw [b64IsZero, beq_iff_eq, ← BitVec.toNat_inj, b64Bits]; simp

theorem b64Mag_eq_zero_iff (v : Dword) : b64Mag v = 0 ↔ b64Bits v = 0 := by
  rw [b64Mag_eq, ← magOfBits_zero, magOfBits_strictMono.injective.eq_iff, magOfBits_zero]

@[simp] theorem b64Round_zero (k : Nat) : b64Round 0 k = 0 := by simp [b64Round]

theorem nonNegative_fabs {v : Dword} (h : b64Bits v ≤ b64InfBits) : NonNegative (fabs v) := by
  rwa [NonNegative, fabs_toNat]

theorem nonNegative_pack {bits : Nat} (h : bits ≤ b64InfBits) : NonNegative (b64Pack false bits) := by
  rw [nonNegative_iff, b64Neg_pack, b64Bits_pack _ h]; exact ⟨rfl, h⟩

/-- A valid sample is finite and a zero or positive (R172). -/
theorem sampleValid_imp {v : Dword} (h : sampleValid v = true) : b64IsFinite v = true ∧ AtLeastZero v := by
  obtain ⟨hfin, hstrict⟩ := (Bool.and_eq_true ..).mp h
  refine ⟨hfin, ((b64IsFinite_iff v).mp hfin).le, fun hneg => ?_⟩
  rw [fnegStrict, hneg] at hstrict
  exact (b64IsZero_iff v).mp (by simpa [b64IsZero] using hstrict)

/-! ### Products and sums -/

/-- A product with a positive constant keeps the other factor's sign, and a zero factor. -/
theorem fmul_of_finitePositive {c v : Dword} (hc : FinitePositive c) (hv : b64Bits v ≤ b64InfBits) :
    ∃ bits, fmul c v = b64Pack (b64Neg v) bits ∧ bits ≤ b64InfBits ∧ (b64Bits v = 0 → bits = 0) := by
  obtain ⟨hfin, hpos, hne⟩ := hc
  have hcZero : b64IsZero c = false := by rwa [← Bool.not_eq_true, b64IsZero_iff]
  rw [fmul, b64IsNaN_of_finite hfin, b64IsInf_of_finite hfin, b64IsNaN_of_le hv, hcZero, hpos]
  cases hinf : b64IsInf v
  · refine ⟨b64Round (b64Mag c * b64Mag v) 1074, by simp, b64Round_le _ _, fun hzero => ?_⟩
    rw [(b64Mag_eq_zero_iff v).mpr hzero, Nat.mul_zero, b64Round_zero]
  · have hbits := (b64IsInf_iff v).mp hinf
    have hvZero : b64IsZero v = false := by rw [← Bool.not_eq_true, b64IsZero_iff, hbits]; decide
    exact ⟨b64InfBits, by simp [hvZero], le_rfl, fun hzero => absurd (hbits.symm.trans hzero) (by decide)⟩

theorem atLeastZero_fmul {c v : Dword} (hc : FinitePositive c) (hv : AtLeastZero v) : AtLeastZero (fmul c v) := by
  obtain ⟨bits, heq, hle, hzero⟩ := fmul_of_finitePositive hc hv.1
  rw [AtLeastZero, heq, b64Neg_pack, b64Bits_pack _ hle]
  exact ⟨hle, fun hneg => hzero (hv.2 hneg)⟩

theorem nonNegative_fmul {c v : Dword} (hc : FinitePositive c) (hv : NonNegative v) : NonNegative (fmul c v) := by
  obtain ⟨hpos, hbits⟩ := (nonNegative_iff v).mp hv
  obtain ⟨bits, heq, hle, -⟩ := fmul_of_finitePositive hc hbits
  rw [heq, hpos]; exact nonNegative_pack hle

/-- The sum of a term that is +0.0 or positive and one that is at least a zero is +0.0 or positive: the second term's
sign bit can be set only where it is a zero, which never outweighs the first. -/
theorem nonNegative_fadd {a b : Dword} (ha : NonNegative a) (hb : AtLeastZero b) : NonNegative (fadd a b) := by
  obtain ⟨hpos, hbits⟩ := (nonNegative_iff a).mp ha
  rw [fadd, b64IsNaN_of_le hbits, b64IsNaN_of_le hb.1, hpos]
  cases hneg : b64Neg b
  · have hb' := hb.nonNegative hneg
    simp only [Bool.or_self, Bool.false_eq_true, if_false, bne_self_eq_false, Bool.and_false, if_true]
    split
    · exact ha
    · split
      · exact hb'
      · exact nonNegative_pack (b64Round_le _ _)
  · have hzero := hb.2 hneg
    have hinf : b64IsInf b = false := by rw [← Bool.not_eq_true, b64IsInf_iff, hzero]; decide
    rw [hinf, (b64Mag_eq_zero_iff b).mpr hzero]
    simp only [Bool.or_self, Bool.false_and, Bool.false_eq_true, if_false]
    split
    · exact ha
    · split
      · exact nonNegative_pack (Nat.zero_le _)
      · next hmag => rw [if_pos (Nat.pos_of_ne_zero hmag)]; exact nonNegative_pack (b64Round_le _ _)

/-- A sum with a finite first term is a NaN only where the second one is. -/
theorem b64Bits_fadd_le {a b : Dword} (ha : b64IsFinite a = true) (hb : b64Bits b ≤ b64InfBits) :
    b64Bits (fadd a b) ≤ b64InfBits := by
  cases hinf : b64IsInf b
  · have hfin : b64IsFinite b = true :=
      (b64IsFinite_iff b).mpr (lt_of_le_of_ne hb fun h => by simp [(b64IsInf_iff b).mpr h] at hinf)
    obtain ⟨neg, n, heq, -⟩ := fadd_eq_pack ha hfin
    rw [heq, b64Bits_pack _ (b64Round_le _ _)]; exact b64Round_le _ _
  · rwa [fadd, b64IsNaN_of_finite ha, b64IsNaN_of_le hb, b64IsInf_of_finite ha, hinf]

/-! ### The update of R170 -/

theorem finitePositive_c0875 : FinitePositive c0875 := by unfold FinitePositive; decide
theorem finitePositive_c0125 : FinitePositive c0125 := by unfold FinitePositive; decide
theorem finitePositive_c075 : FinitePositive c075 := by unfold FinitePositive; decide
theorem finitePositive_c025 : FinitePositive c025 := by unfold FinitePositive; decide

theorem nonNegative_nextEst {est sample : Dword} (hest : NonNegative est) (hsample : AtLeastZero sample) :
    NonNegative (nextEst est sample) :=
  nonNegative_fadd (nonNegative_fmul finitePositive_c0875 hest) (atLeastZero_fmul finitePositive_c0125 hsample)

theorem nonNegative_nextDev {dev sample e : Dword} (hdev : NonNegative dev) (hsample : b64IsFinite sample = true)
    (he : NonNegative e) : NonNegative (nextDev dev sample e) := by
  have hdiff : b64Bits (fsub sample e) ≤ b64InfBits := b64Bits_fadd_le hsample (by
    rw [b64Bits_fneg]; exact he.atLeastZero.1)
  exact nonNegative_fadd (nonNegative_fmul finitePositive_c075 hdev)
    (nonNegative_fmul finitePositive_c025 (nonNegative_fabs hdiff)).atLeastZero

theorem rttUpdate_nonNegative {s : State} (hest : NonNegative s.est) (hdev : NonNegative s.dev) :
    NonNegative (rttUpdate s).est ∧ NonNegative (rttUpdate s).dev := by
  cases hv : sampleValid s.sample
  · rw [rttUpdate_of_invalid hv]; exact ⟨hest, hdev⟩
  · obtain ⟨hfin, hsample⟩ := sampleValid_imp hv
    have he := nonNegative_nextEst hest hsample
    rw [rttUpdate_of_valid hv]
    exact ⟨he, nonNegative_nextDev hdev hfin he⟩

end Sys2Proof.Machine
end

section
/-! The legal states: what each operation keeps of them, up to the step. A released block is held in nothing, so the last
field of `Legal` matters only for the reset events. -/

namespace Sys2Proof.Machine

/-! ### Reset and the events -/

theorem legal_resetWith (cfg : Config.Params) (n : Nat) : Legal (State.resetWith cfg n) where
  txLength := Nat.zero_le _
  rxLength := Nat.zero_le _
  ackLength := (by decide : 0#2 ≠ 3#2)
  txBuffer := rfl
  rxBuffer := rfl
  emptyFrame := nofun
  shortFrame := nofun
  headerHasByte := nofun
  noByte _ := rfl
  noHeader _ := rfl
  matchedByte := nofun
  frameOkFlag := rfl
  acceptFlag := rfl
  noAck _ := rfl
  estRange := Nat.zero_le _
  devRange := Nat.zero_le _
  heldInReset := nofun

theorem legal_applyReset (s : State) : Legal (applyReset s) :=
  { legal_resetWith s.cfg (s.resetCount + 1) with heldInReset := fun _ => rfl }

theorem legal_takeEvent {s : State} (h : Legal s) (rest : List HostEvent) : Legal (takeEvent rest s) :=
  { h with heldInReset := fun hr => congrArg (takeEvent rest) (h.heldInReset hr) }

theorem legal_releaseReset {s : State} (h : Legal s) : Legal { s with resetIn := false } :=
  { h with heldInReset := nofun }

/-- A released block need not show the reset state. -/
theorem heldInReset_of_released {s : State} {p : Prop} (hr : s.resetIn = false) : s.resetIn = true → p :=
  fun h => absurd h (by simp [hr])

/-! ### The shared operations -/

theorem legal_setRdata {s : State} (h : Legal s) (hr : s.resetIn = false) (v : Option Word) :
    Legal { s with rdata := v } :=
  { h with heldInReset := heldInReset_of_released hr }

theorem legal_raise {s : State} (h : Legal s) (hr : s.resetIn = false) (e : Err) : Legal (raise e s) := by
  cases e <;> exact { h with heldInReset := heldInReset_of_released hr }

theorem legal_setSeq {s : State} (h : Legal s) (hr : s.resetIn = false) (q : SeqBits) : Legal { s with seq := q } :=
  { h with heldInReset := heldInReset_of_released hr }

theorem legal_setAckout {s : State} (h : Legal s) (hr : s.resetIn = false) {a : AckOut}
    (ha : a.valid = false → a.byte = 0x00#8) : Legal { s with ackout := a } :=
  { h with noAck := ha, heldInReset := heldInReset_of_released hr }

theorem legal_encodeFrame {s : State} (h : Legal s) (hr : s.resetIn = false) (b : Bool) : Legal (encodeFrame b s) :=
  { h with
    txBuffer := putHeader_wf b _ h.txBuffer (Nat.le_add_left 3 _)
    heldInReset := heldInReset_of_released hr }

theorem legal_checkAck {s : State} (h : Legal s) (hr : s.resetIn = false) (b : Bool) : Legal (checkAck b s) :=
  { h with heldInReset := heldInReset_of_released hr }

/-- A sequence byte that matched is there and is the byte of a bit (R122). -/
theorem frameHeader_of_seqMatches {f : List Byte} {b : Bool} (h : seqMatches f b = true) :
    (frameHeader f).seqV = true ∧ (frameHeader f).rxSeq.toNat ≤ 1 := by
  cases f with
  | nil => cases h
  | cons a rest =>
    obtain rfl : a = seqByte b := by simpa [seqMatches] using h
    simp [frameHeader, seqByte_toNat, Bool.toNat_le]

/-- VERIFY writes all of the flags and the header from one frame, so they are consistent whatever they were (R125). -/
theorem legal_verifyFrame {s : State} (h : Legal s) (hr : s.resetIn = false) : Legal (verifyFrame s) :=
  { h with
    emptyFrame := fun he => by
      have hnil : rxFrame s = [] := List.length_eq_zero_iff.mp (of_decide_eq_true he)
      simp only [verifyFrame_status, verifyFrame_rxhdr, hnil]
      exact ⟨rfl, (by decide : isCorrupt [] = true), rfl⟩
    shortFrame := fun hs => decide_eq_false (not_le.mpr (of_decide_eq_true hs))
    headerHasByte := fun hh => decide_eq_true (Nat.le_trans (by decide) (of_decide_eq_true hh))
    noByte := fun hv => by
      have hnil : rxFrame s = [] := List.length_eq_zero_iff.mp (Nat.lt_one_iff.mp (not_le.mp (of_decide_eq_false hv)))
      simp only [verifyFrame_rxhdr, hnil]; rfl
    noHeader := fun hh => if_neg (of_decide_eq_false hh)
    matchedByte := frameHeader_of_seqMatches
    frameOkFlag := rfl
    acceptFlag := rfl
    heldInReset := heldInReset_of_released hr }

theorem legal_rttUpdate {s : State} (h : Legal s) (hr : s.resetIn = false) : Legal (rttUpdate s) := by
  obtain ⟨hest, hdev⟩ := rttUpdate_nonNegative h.estRange h.devRange
  rw [rttUpdate_frame]
  exact { h with estRange := hest, devRange := hdev, heldInReset := heldInReset_of_released hr }

/-- An ack byte with no ack to send is 0 (R30, R191). -/
theorem receiverAck_noAck (v : State) (h : (receiverAck v).valid = false) : (receiverAck v).byte = 0x00#8 := by
  rcases receiverAck_cases v with hv | hv | hv
  · rw [hv]
  all_goals rw [hv] at h; cases h

/-! ### The commands -/

@[simp] theorem rttUpdate_resetIn (s : State) : (rttUpdate s).resetIn = s.resetIn := by rw [rttUpdate_frame]

/-- ADVANCED and RTT_UPDATED are no part of what the legal states fix of STATUS. -/
theorem legal_setAdvanced {s : State} (h : Legal s) (hr : s.resetIn = false) (a r : Bool) :
    Legal { s with status := { s.status with advanced := a, rttUpdated := r } } :=
  { h with heldInReset := heldInReset_of_released hr }

theorem legal_acceptAck {s : State} (h : Legal s) (hr : s.resetIn = false) : Legal (acceptAck s) := by
  cases hx : s.seq.retx
  · rw [acceptAck_first hx]
    have hu : (rttUpdate s).resetIn = false := by simpa
    exact legal_setSeq (legal_setAdvanced (legal_rttUpdate h hr) hu true _) hu _
  · rw [acceptAck_retransmitted hx]
    exact legal_setSeq (legal_setAdvanced h hr true false) hr _

theorem legal_rejectAck {s : State} (h : Legal s) (hr : s.resetIn = false) : Legal (rejectAck s) :=
  legal_setSeq (legal_setAdvanced h hr false false) hr _

theorem legal_execTxcommit {s t : State} (h : Legal s) (hr : s.resetIn = false) (ht : execTxcommit s = .next t) :
    Legal t := by
  have hcheck := legal_checkAck h hr s.seq.txSeq
  cases hm : ackMatches s.ackin s.seq.txSeq
  · obtain rfl := Host.Outcome.next.inj ((execTxcommit_rejects hm).symm.trans ht)
    exact legal_rejectAck hcheck hr
  · obtain rfl := Host.Outcome.next.inj ((execTxcommit_accepts hm).symm.trans ht)
    exact legal_acceptAck hcheck hr

theorem legal_exec {i : Instr} {s t : State} (h : Legal s) (hr : s.resetIn = false) (ht : exec i s = .next t) :
    Legal t := by
  cases i
  case txcommit => exact legal_execTxcommit h hr ht
  all_goals obtain rfl := Host.Outcome.next.inj ht
  case nop => exact h
  case enc | enci => exact legal_encodeFrame h hr _
  case verify => exact legal_verifyFrame h hr
  case ackenc => exact legal_setAckout h hr h.noByte
  case ackenci => exact legal_setAckout h hr nofun
  case ackchk | ackchki => exact legal_checkAck h hr _
  case txflip | rxflip | seqrst | retxmark => exact legal_setSeq h hr _
  case rttrst =>
    exact { h with
      estRange := Nat.zero_le _, devRange := Nat.zero_le _, heldInReset := heldInReset_of_released hr }
  case rttupd => exact legal_rttUpdate h hr
  case rxcommit => exact legal_setSeq (legal_setAckout (legal_verifyFrame h hr) hr (receiverAck_noAck _)) hr _

/-! ### The host port and the step -/

theorem legal_perform {d : Word} {s t : State} (h : Legal s) (hr : s.resetIn = false) (ht : perform d s = .next t) :
    Legal t := by
  unfold perform at ht
  split at ht
  · exact legal_exec h hr ht
  · obtain rfl := Host.Outcome.next.inj ht; exact legal_raise h hr .cmd

/-- The three length fields are taken from the host only in range (R202). -/
theorem legal_writeReg {s : State} (h : Legal s) (hr : s.resetIn = false) (r : Reg) (d : Word) :
    Legal (writeReg s r d) := by
  have hheld {p : Prop} : s.resetIn = true → p := heldInReset_of_released hr
  cases r
  case txlen =>
    simp only [writeReg]; split
    · exact legal_raise h hr .len
    · next hlen => exact { h with txLength := not_lt.mp hlen, heldInReset := hheld }
  case rxlen =>
    simp only [writeReg]; split
    · exact legal_raise h hr .len
    · next hlen => exact { h with rxLength := not_lt.mp hlen, heldInReset := hheld }
  case ackin =>
    simp only [writeReg]; split
    · exact legal_raise h hr .len
    · next hlen => exact { h with ackLength := hlen, heldInReset := hheld }
  all_goals exact { h with heldInReset := hheld }

theorem legal_writeLanes_putTx {s : State} (h : Legal s) (hr : s.resetIn = false) (o : Nat) (d : Word) :
    Legal (writeLanes putTx (bufSize s) o d s) := by
  have hwf := writeLanes_putTx_wf (o := o) (d := d) h.txBuffer
  rw [writeLanes_putTx_frame]
  exact { h with txBuffer := hwf, heldInReset := heldInReset_of_released hr }

theorem legal_writeLanes_putRx {s : State} (h : Legal s) (hr : s.resetIn = false) (o : Nat) (d : Word) :
    Legal (writeLanes putRx (bufSize s) o d s) := by
  have hwf := writeLanes_putRx_wf (o := o) (d := d) h.rxBuffer
  rw [writeLanes_putRx_frame]
  exact { h with rxBuffer := hwf, heldInReset := heldInReset_of_released hr }

theorem legal_hostWrite {a : Addr} {d : Word} {s t : State} (h : Legal s) (hr : s.resetIn = false)
    (ht : hostWrite a d s = .next t) : Legal t := by
  rcases hostWrite_cases a d s with ⟨-, hw⟩ | ⟨-, hw⟩ | ⟨-, hw⟩ | ⟨r, -, -, hw⟩ | ⟨o, -, hw⟩ | ⟨o, -, hw⟩ <;>
    rw [hw] at ht
  case inr.inr.inl => exact legal_perform (legal_writeReg h hr .cmd d) hr ht
  all_goals obtain rfl := Host.Outcome.next.inj ht
  case inl | inr.inl => exact legal_raise h hr .addr
  · exact legal_writeReg h hr r d
  · exact legal_writeLanes_putTx h hr o d
  · exact legal_writeLanes_putRx h hr o d

theorem legal_hostRead {s : State} (h : Legal s) (hr : s.resetIn = false) (a : Addr) : Legal (hostRead a s) := by
  rcases hostRead_cases a s with ⟨-, hread⟩ | ⟨-, v, hread⟩ <;> rw [hread]
  · exact legal_setRdata (legal_raise h hr .addr) hr _
  · exact legal_setRdata h hr _

/-- Settles O6, by the cases of a step: the reset events set or release the reset state, and each transaction of a
released block keeps every field. -/
theorem stepKeepsLegal : Obligations.StepKeepsLegal := by
  intro s t h ht
  rcases step_cases s with ⟨-, hs⟩ | ⟨rest, -, hs⟩ | ⟨rest, -, hs⟩ | ⟨e, rest, -, -, -, hs⟩ | ⟨a, rest, -, hr, hs⟩ |
    ⟨a, d, rest, -, hr, hs⟩ <;> rw [hs] at ht
  case inr.inr.inr.inr.inr => exact legal_hostWrite (legal_takeEvent h rest) hr ht
  all_goals obtain rfl := Host.Outcome.next.inj ht
  · exact h
  · exact legal_applyReset _
  · exact legal_releaseReset (legal_takeEvent h rest)
  · exact legal_takeEvent h rest
  · exact legal_hostRead (legal_takeEvent h rest) hr a

end Sys2Proof.Machine
end

section
/-! EST, DEV and TMO: which operations keep them, up to the step. -/

namespace Sys2Proof.Machine

/-- The state of the RTT estimator (R38, R39, R40). -/
def rttState (s : State) : Dword × Dword × Dword := (s.est, s.dev, s.tmo)

theorem rttState_ne_of_changed {s t : State} (h : t.est ≠ s.est ∨ t.dev ≠ s.dev ∨ t.tmo ≠ s.tmo) :
    rttState t ≠ rttState s := by
  intro heq
  simp only [rttState, Prod.mk.injEq] at heq
  obtain ⟨hest, hdev, htmo⟩ := heq
  simp [hest, hdev, htmo] at h

/-- The commands that write the estimator: the RTT commands but RETXMARK, and the sender's commit. -/
def WritesRtt (i : Instr) : Prop := i = .rttrst ∨ i = .rttupd ∨ i = .txcommit

theorem exec_rttState {i : Instr} {s t : State} (h : exec i s = .next t) (hi : ¬ WritesRtt i) :
    rttState t = rttState s := by
  cases i
  case rttrst | rttupd | txcommit => simp [WritesRtt] at hi
  all_goals obtain rfl := Host.Outcome.next.inj h; rfl

theorem perform_rttState {d : Word} {s t : State} (h : perform d s = .next t)
    (hi : ∀ i, decode d = .ok i → ¬ WritesRtt i) : rttState t = rttState s := by
  unfold perform at h
  split at h
  · next hd => exact exec_rttState h (hi _ hd)
  · obtain rfl := Host.Outcome.next.inj h; rfl

/-- The host cannot write EST, DEV or TMO (R44). -/
theorem writeReg_rttState (s : State) (r : Reg) (d : Word) : rttState (writeReg s r d) = rttState s := by
  cases r
  case txlen | rxlen | ackin => simp only [writeReg]; split <;> rfl
  all_goals rfl

theorem hostWrite_rttState {a : Addr} {d : Word} {s t : State} (h : hostWrite a d s = .next t)
    (hi : a = regAddr .cmd → ∀ i, decode d = .ok i → ¬ WritesRtt i) : rttState t = rttState s := by
  rcases hostWrite_cases a d s with ⟨-, hw⟩ | ⟨-, hw⟩ | ⟨ha, hw⟩ | ⟨r, -, -, hw⟩ | ⟨o, -, hw⟩ | ⟨o, -, hw⟩ <;>
    rw [hw] at h
  case inr.inr.inl => exact perform_rttState (s := { s with cmdLast := d }) h (hi ha)
  all_goals obtain rfl := Host.Outcome.next.inj h
  case inl | inr.inl => rfl
  · exact writeReg_rttState s r d
  · rw [writeLanes_putTx_frame]; rfl
  · rw [writeLanes_putRx_frame]; rfl

/-- A step that neither asserts reset nor issues a command that writes the estimator keeps it. -/
theorem step_rttState {s t : State} (h : step s = .next t) (hreset : ¬ AssertsReset s)
    (hi : ∀ i, Issues s i → ¬ WritesRtt i) : rttState t = rttState s := by
  rcases step_cases s with ⟨-, hs⟩ | ⟨rest, hp, -⟩ | ⟨rest, -, hs⟩ | ⟨e, rest, -, -, -, hs⟩ | ⟨a, rest, -, -, hs⟩ |
    ⟨a, d, rest, hp, hr, hs⟩
  case inr.inl => exact absurd ⟨rest, hp⟩ hreset
  all_goals rw [hs] at h
  case inr.inr.inr.inr.inr =>
    refine hostWrite_rttState (s := takeEvent rest s) h ?_
    rintro rfl i hd
    exact hi i ⟨d, rest, ⟨hr, hp⟩, hd⟩
  all_goals obtain rfl := Host.Outcome.next.inj h
  case inr.inr.inr.inr.inl =>
    rcases hostRead_cases a (takeEvent rest s) with ⟨-, hread⟩ | ⟨-, v, hread⟩ <;> rw [hread] <;> rfl
  all_goals rfl

/-- Settles O26: the contrapositive of `step_rttState`. -/
theorem rttStateChangedOnlyByRttCommands : Obligations.RttStateChangedOnlyByRttCommands := by
  intro s t h hchanged
  by_contra! hnone
  obtain ⟨hreset, hrst, hupd, hcommit⟩ := hnone
  refine rttState_ne_of_changed hchanged (step_rttState h hreset ?_)
  rintro i hissues (rfl | rfl | rfl)
  · exact hrst hissues
  · exact hupd hissues
  · exact hcommit hissues

end Sys2Proof.Machine
end

section
/-! STATUS as an output only (R45): every command writes each bit of it from the rest of the state, or keeps it. -/

namespace Sys2Proof.Machine

/-- A change of STATUS that overwrites each bit with the same value whatever STATUS was, or keeps the bit. -/
def OverwritesOrKeeps (f : Status → Status) : Prop :=
  ∀ bit ∈ statusBits, (∀ st st', bit (f st) = bit (f st')) ∨ ∀ st, bit (f st) = bit st

theorem overwritesOrKeeps_id : OverwritesOrKeeps id := fun _ _ => .inr fun _ => rfl

theorem OverwritesOrKeeps.comp {f g : Status → Status} (hg : OverwritesOrKeeps g) (hf : OverwritesOrKeeps f) :
    OverwritesOrKeeps (g ∘ f) := by
  intro bit hbit
  obtain hover | hkeep := hg bit hbit
  · exact .inl fun st st' => hover (f st) (f st')
  · obtain hover | hkeep' := hf bit hbit
    · exact .inl fun st st' => by simp only [Function.comp, hkeep]; exact hover st st'
    · exact .inr fun st => by simp only [Function.comp, hkeep, hkeep']

theorem overwritesOrKeeps_verifyStatus (f : List Byte) (b : Bool) : OverwritesOrKeeps (verifyStatus f b) := by
  simp [OverwritesOrKeeps, statusBits, verifyStatus]

theorem overwritesOrKeeps_ackMatch (b : Bool) : OverwritesOrKeeps fun st => { st with ackMatch := b } := by
  simp [OverwritesOrKeeps, statusBits]

theorem overwritesOrKeeps_advanced (b : Bool) : OverwritesOrKeeps fun st => { st with advanced := b } := by
  simp [OverwritesOrKeeps, statusBits]

theorem overwritesOrKeeps_rttUpdated (b : Bool) : OverwritesOrKeeps fun st => { st with rttUpdated := b } := by
  simp [OverwritesOrKeeps, statusBits]

theorem overwritesOrKeeps_setError (e : Err) : OverwritesOrKeeps (setError e) := by
  cases e <;> simp [OverwritesOrKeeps, statusBits, setError]

/-- An operation reads no STATUS bit: beside STATUS its result is one state, and STATUS it overwrites or keeps. -/
def ReadsNoStatus (op : State → State) : Prop :=
  ∀ s : State, ∃ (u : State) (f : Status → Status), OverwritesOrKeeps f ∧
    ∀ st, op { s with status := st } = { u with status := f st }

theorem ReadsNoStatus.comp {op op' : State → State} (h' : ReadsNoStatus op') (h : ReadsNoStatus op) :
    ReadsNoStatus (op' ∘ op) := by
  intro s
  obtain ⟨u, f, hf, hu⟩ := h s
  obtain ⟨u', f', hf', hu'⟩ := h' u
  exact ⟨u', f' ∘ f, hf'.comp hf, fun st => by simp only [Function.comp, hu, hu']⟩

/-- An operation that treats STATUS apart from everything else. -/
theorem readsNoStatus_of_status {op : State → State} (f : State → Status → Status)
    (hf : ∀ s, OverwritesOrKeeps (f s))
    (h : ∀ (s : State) (st : Status), op { s with status := st } = { op s with status := f s st }) :
    ReadsNoStatus op := fun s => ⟨op s, f s, hf s, h s⟩

theorem readsNoStatus_checkAck (b : Bool) : ReadsNoStatus (checkAck b) :=
  readsNoStatus_of_status (fun s st => { st with ackMatch := ackMatches s.ackin b })
    (fun _ => overwritesOrKeeps_ackMatch _) fun _ _ => rfl

theorem readsNoStatus_rttUpdate : ReadsNoStatus rttUpdate := by
  intro s
  cases hv : sampleValid s.sample
  · exact ⟨s, _, (overwritesOrKeeps_rttUpdated false).comp (overwritesOrKeeps_setError .rtt), fun st =>
      rttUpdate_of_invalid (s := { s with status := st }) hv⟩
  · exact ⟨rttUpdate s, _, overwritesOrKeeps_rttUpdated true, fun st => by
      rw [rttUpdate_of_valid (s := { s with status := st }) hv, rttUpdate_of_valid hv]⟩

theorem readsNoStatus_feedSample : ReadsNoStatus feedSample := by
  intro s
  cases hx : s.seq.retx
  · obtain ⟨u, f, hf, hu⟩ := readsNoStatus_rttUpdate s
    exact ⟨u, f, hf, fun st => by simp only [feedSample, hx, hu]; rfl⟩
  · exact ⟨s, _, overwritesOrKeeps_rttUpdated false, fun st => by simp [feedSample, hx]⟩

theorem readsNoStatus_acceptAck : ReadsNoStatus acceptAck := by
  intro s
  obtain ⟨u, f, hf, hu⟩ := readsNoStatus_feedSample s
  exact ⟨{ u with seq := { u.seq with txSeq := !u.seq.txSeq, retx := false } }, _,
    (overwritesOrKeeps_advanced true).comp hf, fun st => by simp only [acceptAck, hu]; rfl⟩

theorem readsNoStatus_rejectAck : ReadsNoStatus rejectAck :=
  readsNoStatus_of_status (fun _ => _)
    (fun _ => (overwritesOrKeeps_rttUpdated false).comp (overwritesOrKeeps_advanced false)) fun _ _ => rfl

/-- A command reads no STATUS bit: `ReadsNoStatus` of what `exec` answers. -/
def CommandReadsNoStatus (i : Instr) : Prop :=
  ∀ s : State, ∃ (u : State) (f : Status → Status), OverwritesOrKeeps f ∧
    ∀ st, exec i { s with status := st } = .next { u with status := f st }

theorem ReadsNoStatus.command {op : State → State} {i : Instr} (hop : ReadsNoStatus op)
    (h : ∀ s, exec i s = .next (op s)) : CommandReadsNoStatus i := by
  intro s
  obtain ⟨u, f, hf, hu⟩ := hop s
  exact ⟨u, f, hf, fun st => by rw [h, hu]⟩

/-- The comparison of TXCOMMIT reads ACKIN and TX_SEQ: it takes the same branch whatever STATUS is. -/
theorem commandReadsNoStatus_txcommit : CommandReadsNoStatus .txcommit := by
  intro s
  cases hm : ackMatches s.ackin s.seq.txSeq
  · obtain ⟨u, f, hf, hu⟩ := (readsNoStatus_rejectAck.comp (readsNoStatus_checkAck s.seq.txSeq)) s
    exact ⟨u, f, hf, fun st => (execTxcommit_rejects (s := { s with status := st }) hm).trans (congrArg _ (hu st))⟩
  · obtain ⟨u, f, hf, hu⟩ := (readsNoStatus_acceptAck.comp (readsNoStatus_checkAck s.seq.txSeq)) s
    exact ⟨u, f, hf, fun st => (execTxcommit_accepts (s := { s with status := st }) hm).trans (congrArg _ (hu st))⟩

/-- A command that treats STATUS apart from everything else. RXCOMMIT is one: it reads FRAME_OK and ACCEPT only after it
has written them. -/
theorem commandReadsNoStatus_of_status {i : Instr} (f : State → Status → Status) (hf : ∀ s, OverwritesOrKeeps (f s))
    (h : ∀ {s t : State} (st : Status), exec i s = .next t →
      exec i { s with status := st } = .next { t with status := f s st }) : CommandReadsNoStatus i := by
  intro s
  obtain ⟨t, ht⟩ := exec_next i s
  exact ⟨t, f s, hf s, fun st => h st ht⟩

theorem commandReadsNoStatus (i : Instr) : CommandReadsNoStatus i := by
  cases i
  case verify | rxcommit =>
    refine commandReadsNoStatus_of_status (fun s => verifyStatus (rxFrame s) s.seq.rxExp)
      (fun _ => overwritesOrKeeps_verifyStatus _ _) fun _ h => ?_
    obtain rfl := Host.Outcome.next.inj h; rfl
  case ackchk =>
    refine commandReadsNoStatus_of_status (fun s st => { st with ackMatch := ackMatches s.ackin s.seq.txSeq })
      (fun _ => overwritesOrKeeps_ackMatch _) fun _ h => ?_
    obtain rfl := Host.Outcome.next.inj h; rfl
  case ackchki b => exact (readsNoStatus_checkAck b).command fun _ => rfl
  case rttupd => exact readsNoStatus_rttUpdate.command fun _ => rfl
  case txcommit => exact commandReadsNoStatus_txcommit
  all_goals
    refine commandReadsNoStatus_of_status (fun _ => id) (fun _ => overwritesOrKeeps_id) fun _ h => ?_
    obtain rfl := Host.Outcome.next.inj h; rfl

/-- Settles O56: the command's two results are one state with two STATUS words, one for each start. -/
theorem noCommandReadsStatus : Obligations.NoCommandReadsStatus := by
  intro i s st
  obtain ⟨u, f, hf, hu⟩ := commandReadsNoStatus i s
  refine ⟨_, _, hu s.status, hu st, rfl, fun bit hbit => ?_⟩
  obtain hover | hkeep := hf bit hbit
  · exact .inl (hover _ _)
  · exact .inr ⟨hkeep _, hkeep _⟩

end Sys2Proof.Machine
end

section
/-! The fields of the registers at their bits. -/

namespace Sys2Proof.Machine

/-! ### Fields of a word

A register's word is an append at the width 32. The library's lemmas about an append are indexed by a width `m + n`, so
`simp` does not find them there; these are the ones it needs, with the width left out of the index. -/

theorem getLsbD_append_low {m n i : Nat} {x : BitVec m} {y : BitVec n} (h : i < n) :
    @BitVec.getLsbD (no_index (m + n)) (@HAppend.hAppend _ _ (no_index (BitVec (m + n))) _ x y) i = y.getLsbD i := by
  rw [BitVec.getLsbD_append, if_pos h]

theorem getLsbD_append_high {m n i : Nat} {x : BitVec m} {y : BitVec n} (h : n ≤ i) :
    @BitVec.getLsbD (no_index (m + n)) (@HAppend.hAppend _ _ (no_index (BitVec (m + n))) _ x y) i =
      x.getLsbD (i - n) := by
  rw [BitVec.getLsbD_append, if_neg (not_lt.mpr h)]

theorem extractLsb'_append_low {m n start len : Nat} {x : BitVec m} {y : BitVec n} (h : start + len ≤ n) :
    @BitVec.extractLsb' (no_index (m + n)) start len (@HAppend.hAppend _ _ (no_index (BitVec (m + n))) _ x y) =
      y.extractLsb' start len := by
  ext i hi
  simp only [BitVec.getElem_extractLsb']
  exact getLsbD_append_low (by omega)

theorem extractLsb'_append_high {m n start len : Nat} {x : BitVec m} {y : BitVec n} (h : n ≤ start) :
    @BitVec.extractLsb' (no_index (m + n)) start len (@HAppend.hAppend _ _ (no_index (BitVec (m + n))) _ x y) =
      x.extractLsb' (start - n) len := by
  ext i hi
  simp only [BitVec.getElem_extractLsb']
  rw [getLsbD_append_high (by omega), Nat.sub_add_comm h]

/-- A 64-bit register is its two halves (R42). -/
theorem halves_append (v : Dword) : v.extractLsb' 32 32 ++ v.extractLsb' 0 32 = v := by
  apply BitVec.eq_of_getLsbD_eq
  intro i hi
  by_cases h : i < 32
  · rw [getLsbD_append_low h]; simp [h]
  · rw [getLsbD_append_high (by omega)]
    have hhigh : i - 32 < 32 := by omega
    simp [hhigh, Nat.add_sub_cancel' (not_lt.mp h)]

@[simp] theorem setLow_low (x : Dword) (d : Word) : (setLow x d).extractLsb' 0 32 = d := by
  simp [setLow, extractLsb'_append_low]

@[simp] theorem setLow_high (x : Dword) (d : Word) : (setLow x d).extractLsb' 32 32 = x.extractLsb' 32 32 := by
  simp [setLow, extractLsb'_append_high]

@[simp] theorem setHigh_high (x : Dword) (d : Word) : (setHigh x d).extractLsb' 32 32 = d := by
  simp [setHigh, extractLsb'_append_high]

@[simp] theorem setHigh_low (x : Dword) (d : Word) : (setHigh x d).extractLsb' 0 32 = x.extractLsb' 0 32 := by
  simp [setHigh, extractLsb'_append_low]

/-! ### The registers as words -/

/-- The result flags and the sticky errors stand at their bits of STATUS (R25, R26). -/
theorem statusWord_bits (st : Status) :
    (statusWord st).getLsbD 0 = st.corrupt ∧ (statusWord st).getLsbD 1 = st.short ∧
      (statusWord st).getLsbD 2 = st.empty ∧ (statusWord st).getLsbD 3 = st.seqMatch ∧
      (statusWord st).getLsbD 4 = st.frameOk ∧ (statusWord st).getLsbD 5 = st.accept ∧
      (statusWord st).getLsbD 6 = st.ackMatch ∧ (statusWord st).getLsbD 7 = st.advanced ∧
      (statusWord st).getLsbD 8 = st.rttUpdated ∧ (statusWord st).extractLsb' 9 7 = 0#7 ∧
      (statusWord st).getLsbD 16 = st.errCmd ∧ (statusWord st).getLsbD 17 = st.errLen ∧
      (statusWord st).getLsbD 18 = st.errAddr ∧ (statusWord st).getLsbD 19 = st.errRtt ∧
      (statusWord st).extractLsb' 20 12 = 0#12 := by
  simp [statusWord, getLsbD_append_low, getLsbD_append_high, extractLsb'_append_low, extractLsb'_append_high,
    -BitVec.getLsbD_eq_getElem]

/-- RXPLEN is the payload length, 0 for a frame too short to have one (R28). -/
theorem rxplen_toNat (s : State) : (rxplen s).toNat = s.rxflen.toNat - 3 := by
  unfold rxplen; split <;> bv_omega

/-- Settles O15: each register by its fields; MAX_PACKET fits the 32 bits of MAXPKT. -/
theorem registerFieldsAtTheirBits : Obligations.RegisterFieldsAtTheirBits := by
  intro s
  refine ⟨rfl, statusWord_bits s.status, ?txlen, ?rxlen, ?ackin, ?ackout, ?seq, ?rxhdr, ?csum, ?maxpkt,
    halves_append _, halves_append _, halves_append _, halves_append _, halves_append _⟩
  case maxpkt =>
    have hcap := s.cfg.payloadCap.isLt
    simp only [readReg, maxPacket, BitVec.toNat_ofNat]; omega
  case rxlen =>
    simp [readReg, extractLsb'_append_low, extractLsb'_append_high, rxplen_toNat, -BitVec.extractLsb'_toNat]
  case txlen => simp [readReg, extractLsb'_append_low, extractLsb'_append_high, txflen]
  case ackin | csum => simp [readReg, extractLsb'_append_low, extractLsb'_append_high]
  case ackout | seq | rxhdr =>
    simp [readReg, getLsbD_append_low, getLsbD_append_high, extractLsb'_append_low, extractLsb'_append_high,
      -BitVec.getLsbD_eq_getElem]

end Sys2Proof.Machine
end

section
/-! The host's writes to registers other than CMD: what they set and which bits of the word they ignore. -/

namespace Sys2Proof.Machine

/-! ### Writes to a register -/

/-- The step of a write to a register other than CMD (R101). -/
theorem step_of_writesReg {s : State} {r : Reg} {d : Word} {rest : List HostEvent} (hr : r ≠ .cmd)
    (h : WritesNext s (regAddr r) d rest) : step s = .next (writeReg (takeEvent rest s) r d) := by
  obtain ⟨hin, hp⟩ := h
  have hserve : step s = hostWrite (regAddr r) d (takeEvent rest s) := by simp [step, serveNext, serve, hp, hin]
  rw [hserve, hostWrite, target_regAddr]
  cases r
  case cmd => exact absurd rfl hr
  all_goals rfl

/-- A length in range is taken (R27). -/
theorem writeReg_txlen_of_le {s : State} {d : Word} (h : (d.extractLsb' 0 16).toNat ≤ maxPacket s) :
    writeReg s .txlen d = { s with txplen := d.extractLsb' 0 16 } := if_neg (not_lt.mpr h)

/-- A length in range is taken (R28). -/
theorem writeReg_rxlen_of_le {s : State} {d : Word} (h : (d.extractLsb' 0 16).toNat ≤ maxPacket s + 3) :
    writeReg s .rxlen d = { s with rxflen := d.extractLsb' 0 16 } := if_neg (not_lt.mpr h)

/-- The three bits of SEQ are the three low bits of the word written (R31, R32, R33). -/
theorem seqWord_eq_and (d : Word) :
    0#29 ++ BitVec.ofBool (d.getLsbD 2) ++ BitVec.ofBool (d.getLsbD 1) ++ BitVec.ofBool (d.getLsbD 0) =
      d &&& 0x00000007#32 := by
  apply BitVec.eq_of_getLsbD_eq
  intro i hi
  obtain rfl | rfl | rfl | h : i = 0 ∨ i = 1 ∨ i = 2 ∨ 3 ≤ i := by omega
  case inr.inr.inr =>
    have hmask : (0x00000007#32).getLsbD i = false := by
      rw [BitVec.getLsbD, BitVec.toNat_ofNat]
      exact Nat.testBit_lt_two_pow (lt_of_lt_of_le (by decide) (Nat.pow_le_pow_right two_pos h))
    rw [BitVec.getLsbD_and, hmask, Bool.and_false, getLsbD_append_high (by omega), getLsbD_append_high (by omega),
      getLsbD_append_high (by omega)]
    simp
  all_goals simp [getLsbD_append_low, getLsbD_append_high, -BitVec.getLsbD_eq_getElem]

/-- Settles O23: the write to SEQ stores three bits of the word, and SEQ reads them back. -/
theorem seqWriteSetsThreeBits : Obligations.SeqWriteSetsThreeBits :=
  fun _ d _ h => ⟨_, step_of_writesReg (r := .seq) (by decide) h, rfl, seqWord_eq_and d⟩

/-- Settles O24: the four halves, by `setLow` and `setHigh`. -/
theorem halfWritesChangeOneHalf : Obligations.HalfWritesChangeOneHalf := by
  intro s d rest
  refine ⟨fun h => ?_, fun h => ?_, fun h => ?_, fun h => ?_⟩
  · exact ⟨_, step_of_writesReg (r := .sampleLo) (by decide) h, rfl, setLow_low _ _, setLow_high _ _⟩
  · exact ⟨_, step_of_writesReg (r := .sampleHi) (by decide) h, rfl, setHigh_high _ _, setHigh_low _ _⟩
  · exact ⟨_, step_of_writesReg (r := .initTmoLo) (by decide) h, rfl, setLow_low _ _, setLow_high _ _⟩
  · exact ⟨_, step_of_writesReg (r := .initTmoHi) (by decide) h, rfl, setHigh_high _ _, setHigh_low _ _⟩

/-! ### Read-only registers, read-only fields and reserved bits -/

/-- A bit of a field that two words share is a bit they share. -/
theorem getLsbD_eq_of_field {d d' : Word} {start len : Nat} (h : d.extractLsb' start len = d'.extractLsb' start len)
    {i : Nat} (hi : i < len) : d.getLsbD (start + i) = d'.getLsbD (start + i) := by
  simpa [hi] using congrArg (BitVec.getLsbD · i) h

/-- A part of a field that two words share is a field they share. -/
theorem field_eq_of_field {d d' : Word} {len : Nat} (h : d.extractLsb' 0 len = d'.extractLsb' 0 len)
    {start len' : Nat} (hle : start + len' ≤ len) : d.extractLsb' start len' = d'.extractLsb' start len' := by
  ext i hi
  have hbit := getLsbD_eq_of_field h (i := start + i) (by omega)
  simpa using hbit

/-- The bits of a written word that a register with read-only fields or reserved bits takes (R44). -/
def AgreeOnWritable (r : Reg) (d d' : Word) : Prop :=
  match r with
  | .status => d.extractLsb' 16 4 = d'.extractLsb' 16 4
  | .txlen | .rxlen => d.extractLsb' 0 16 = d'.extractLsb' 0 16
  | .ackin => d.extractLsb' 0 18 = d'.extractLsb' 0 18
  | .seq => d.extractLsb' 0 3 = d'.extractLsb' 0 3
  | _ => d = d'

theorem writeReg_eq_of_agree {r : Reg} {d d' : Word} (h : AgreeOnWritable r d d') (s : State) :
    writeReg s r d = writeReg s r d' := by
  cases r
  case status =>
    have h16 := getLsbD_eq_of_field (i := 0) h (by decide)
    have h17 := getLsbD_eq_of_field (i := 1) h (by decide)
    have h18 := getLsbD_eq_of_field (i := 2) h (by decide)
    have h19 := getLsbD_eq_of_field (i := 3) h (by decide)
    simp only [writeReg, clearErrors, h16, h17, h18, h19]
  case txlen | rxlen =>
    have hlen : d.extractLsb' 0 16 = d'.extractLsb' 0 16 := h
    simp only [writeReg, hlen]
  case ackin =>
    have h0 : d.extractLsb' 0 8 = d'.extractLsb' 0 8 := field_eq_of_field h (by decide)
    have h1 : d.extractLsb' 8 8 = d'.extractLsb' 8 8 := field_eq_of_field h (by decide)
    have hlen : d.extractLsb' 16 2 = d'.extractLsb' 16 2 := field_eq_of_field h (by decide)
    simp only [writeReg, h0, h1, hlen]
  case seq =>
    have h0 := getLsbD_eq_of_field (i := 0) h (by decide)
    have h1 := getLsbD_eq_of_field (i := 1) h (by decide)
    have h2 := getLsbD_eq_of_field (i := 2) h (by decide)
    simp only [writeReg, h0, h1, h2]
  all_goals obtain rfl : d = d' := h; rfl

/-- Two writes to a register that agree on its writable bits have the same step. -/
theorem step_eq_of_agree {s : State} {r : Reg} {d d' : Word} {rest : List HostEvent} (hr : r ≠ .cmd)
    (h : WritesNext s (regAddr r) d rest) (hd : AgreeOnWritable r d d') :
    step s = step { s with pending := .wr (regAddr r) d' :: rest } := by
  have h' : WritesNext { s with pending := .wr (regAddr r) d' :: rest } (regAddr r) d' rest := ⟨h.1, rfl⟩
  rw [step_of_writesReg hr h, step_of_writesReg hr h', writeReg_eq_of_agree hd]
  rfl

/-- The read-only registers (R44). -/
def readOnlyRegs : List Reg :=
  [.ackout, .rxhdr, .csum, .maxpkt, .estLo, .estHi, .devLo, .devHi, .tmoLo, .tmoHi]

theorem writeReg_readOnly {r : Reg} (hr : r ∈ readOnlyRegs) (s : State) (d : Word) : writeReg s r d = s := by
  cases r
  case ackout | rxhdr | csum | maxpkt | estLo | estHi | devLo | devHi | tmoLo | tmoHi => rfl
  all_goals exact absurd hr (by decide)

/-- Settles O25: the ten read-only registers, the registers with bits that a write ignores, and the RW lengths. -/
theorem readOnlyBitsIgnoreWrites : Obligations.ReadOnlyBitsIgnoreWrites := by
  refine ⟨fun s a d rest h ha => ?readOnly, ?_, fun s d rest h hlen => ?txlen, fun s d rest h hlen => ?rxlen⟩
  case readOnly =>
    change a ∈ readOnlyRegs.map regAddr at ha
    obtain ⟨r, hr, rfl⟩ := List.mem_map.mp ha
    have hcmd : r ≠ .cmd := by rintro rfl; exact absurd hr (by decide)
    rw [step_of_writesReg hcmd h, writeReg_readOnly hr]; rfl
  case txlen =>
    exact ⟨_, (step_of_writesReg (r := .txlen) (by decide) h).trans
      (congrArg _ (writeReg_txlen_of_le (s := takeEvent rest s) hlen)), rfl⟩
  case rxlen =>
    exact ⟨_, (step_of_writesReg (r := .rxlen) (by decide) h).trans
      (congrArg _ (writeReg_rxlen_of_le (s := takeEvent rest s) hlen)), rfl⟩
  · rintro s s' a d d' rest h rfl (⟨rfl, hd⟩ | ⟨rfl | rfl, hd⟩ | ⟨rfl, hd⟩ | ⟨rfl, hd⟩)
    · exact step_eq_of_agree (r := .status) (by decide) h hd
    · exact step_eq_of_agree (r := .txlen) (by decide) h hd
    · exact step_eq_of_agree (r := .rxlen) (by decide) h hd
    · exact step_eq_of_agree (r := .ackin) (by decide) h hd
    · exact step_eq_of_agree (r := .seq) (by decide) h hd

end Sys2Proof.Machine
end

section
/-! The host's transactions by what their address names: the address decoder and the steps of the memory map. -/

namespace Sys2Proof.Machine

/-! ### The step of a transaction -/

theorem step_of_readsNext {s : State} {a : Addr} {rest : List HostEvent} (h : ReadsNext s a rest) :
    step s = .next (hostRead a (takeEvent rest s)) := by
  obtain ⟨hin, hp⟩ := h
  simp [step, serveNext, serve, hp, hin]

theorem step_of_writesNext {s : State} {a : Addr} {d : Word} {rest : List HostEvent} (h : WritesNext s a d rest) :
    step s = hostWrite a d (takeEvent rest s) := by
  obtain ⟨hin, hp⟩ := h
  simp [step, serveNext, serve, hp, hin]

/-! ### The address decoder -/

/-- The decoder reads the parameters of the block alone. -/
@[simp] theorem target_takeEvent (rest : List HostEvent) (s : State) (a : Addr) :
    target (takeEvent rest s) a = target s a := rfl

/-- A buffer fits its window (R5, R61, R62). -/
theorem bufSize_le_window (s : State) : bufSize s ≤ 0x1000 := by
  have hcap := s.cfg.payloadCap.isLt
  simp only [bufSize, maxPacket]; omega

theorem aligned_iff (a : Addr) : a.extractLsb' 0 2 = 0#2 ↔ a.toNat % 4 = 0 := by
  rw [← BitVec.toNat_inj]; simp

/-- The registers end at 0x004C (R61). -/
theorem regAddr_toNat_le (r : Reg) : (regAddr r).toNat ≤ 0x004C := by cases r <;> decide

theorem regAt_of_above {a : Addr} (h : 0x0050 ≤ a.toNat) : regAt a = none := by
  cases hr : regAt a with
  | none => rfl
  | some r =>
    have hle := regAddr_toNat_le r
    rw [← regAddr_of_regAt hr] at hle
    omega

theorem target_of_misaligned {a : Addr} (h : a.extractLsb' 0 2 ≠ 0#2) (s : State) : target s a = .misaligned :=
  if_pos h

/-- Past the registers an aligned address is decoded by the two windows alone. -/
theorem target_above_registers {a : Addr} (halign : a.toNat % 4 = 0) (habove : 0x0050 ≤ a.toNat) (s : State) :
    target s a =
      if 0x1000 ≤ a.toNat ∧ a.toNat ≤ 0x1FFF then
        if a.toNat - 0x1000 < bufSize s then .txWord (a.toNat - 0x1000) else .unmapped
      else if 0x2000 ≤ a.toNat ∧ a.toNat ≤ 0x2FFF then
        if a.toNat - 0x2000 < bufSize s then .rxWord (a.toNat - 0x2000) else .unmapped
      else .unmapped := by
  have haligned : ¬ a.extractLsb' 0 2 ≠ 0#2 := not_not.mpr ((aligned_iff a).mpr halign)
  rw [target, if_neg haligned, regAt_of_above habove]
  rfl

/-- In the two branches that name a buffer word the offset would lie below BUF_SIZE, which no unmapped address has. -/
theorem target_of_unmapped {s : State} {a : Addr} (halign : a.toNat % 4 = 0) (h : UnmappedAddr s a) :
    target s a = .unmapped := by
  unfold UnmappedAddr at h
  rw [target_above_registers halign (by omega)]
  split_ifs
  case pos | pos => omega
  all_goals rfl

theorem target_of_txWord {s : State} {a : Addr} {o : Nat} (halign : o % 4 = 0) (ho : o < bufSize s)
    (ha : a.toNat = 0x1000 + o) : target s a = .txWord o := by
  have hsize := bufSize_le_window s
  rw [target_above_registers (by omega) (by omega), if_pos (by omega), if_pos (by omega), ha, Nat.add_sub_cancel_left]

theorem target_of_rxWord {s : State} {a : Addr} {o : Nat} (halign : o % 4 = 0) (ho : o < bufSize s)
    (ha : a.toNat = 0x2000 + o) : target s a = .rxWord o := by
  have hsize := bufSize_le_window s
  rw [target_above_registers (by omega) (by omega), if_neg (by omega), if_pos (by omega), if_pos (by omega), ha,
    Nat.add_sub_cancel_left]

/-! ### Addresses that name nothing -/

theorem step_read_raises_errAddr {s : State} {a : Addr} {rest : List HostEvent}
    (ha : target s a = .misaligned ∨ target s a = .unmapped) (h : ReadsNext s a rest) :
    step s = .next { s with
      pending := rest, rdata := some 0x00000000#32, status := { s.status with errAddr := true } } := by
  rw [step_of_readsNext h, hostRead, target_takeEvent]
  rcases ha with ha | ha <;> rw [ha] <;> rfl

theorem step_write_raises_errAddr {s : State} {a : Addr} {d : Word} {rest : List HostEvent}
    (ha : target s a = .misaligned ∨ target s a = .unmapped) (h : WritesNext s a d rest) :
    step s = .next { s with
      pending := rest, rdata := none, status := { s.status with errAddr := true } } := by
  rw [step_of_writesNext h, hostWrite, target_takeEvent]
  rcases ha with ha | ha <;> rw [ha] <;> rfl

/-- Settles O16: the decoder checks the alignment first. -/
theorem misalignedAccessRaisesErrAddr : Obligations.MisalignedAccessRaisesErrAddr := by
  intro s a d rest hmis
  have ha := target_of_misaligned hmis s
  exact ⟨step_read_raises_errAddr (.inl ha), step_write_raises_errAddr (.inl ha)⟩

/-- Settles O17: an aligned address outside the map is decoded as unmapped. -/
theorem unmappedAccessRaisesErrAddr : Obligations.UnmappedAccessRaisesErrAddr := by
  intro s a d rest halign hun
  have ha := target_of_unmapped halign hun
  exact ⟨step_read_raises_errAddr (.inr ha), step_write_raises_errAddr (.inr ha)⟩

/-! ### Registers -/

/-- Settles O14: the map of R61 is the definition's, and the address of a register is decoded as that register. -/
theorem registerReadsHaveNoSideEffect : Obligations.RegisterReadsHaveNoSideEffect := by
  refine ⟨by decide, fun s r rest h => ?_⟩
  rw [step_of_readsNext h, hostRead, target_regAddr]
  cases r <;> rfl

/-! ### Buffer words -/

/-- The lanes of a buffer word are its bytes in order, 0x00 past the buffer's end (R64). -/
theorem lane_bufferWord (byte : Nat → Byte) (size o : Nat) {i : Nat} (hi : i < 4) :
    lane (bufferWord byte size o) i = if o + i < size then byte (o + i) else 0x00#8 := by
  obtain rfl | rfl | rfl | rfl : i = 0 ∨ i = 1 ∨ i = 2 ∨ i = 3 := by omega
  all_goals simp [lane, bufferWord, extractLsb'_append_low, extractLsb'_append_high]

/-- Settles O18: the word returned is `bufferWord` of the window's buffer. -/
theorem bufferWordReadsLanes : Obligations.BufferWordReadsLanes := by
  intro s a o rest halign ho h
  have hstep := step_of_readsNext h
  rw [hostRead, target_takeEvent] at hstep
  refine ⟨fun ha => ?tx, fun ha => ?rx⟩
  case tx =>
    rw [target_of_txWord halign ho ha] at hstep
    exact ⟨_, hstep, fun i hi => lane_bufferWord (txByte s) (bufSize s) o hi⟩
  case rx =>
    rw [target_of_rxWord halign ho ha] at hstep
    exact ⟨_, hstep, fun i hi => lane_bufferWord (rxByte s) (bufSize s) o hi⟩

/-- Settles O19: the write is `writeLanes` into the window's buffer, which changes that buffer alone. -/
theorem bufferWordWriteStoresLanes : Obligations.BufferWordWriteStoresLanes := by
  intro s a d o rest halign ho h
  have hstep := step_of_writesNext h
  rw [hostWrite, target_takeEvent] at hstep
  refine ⟨fun ha => ?tx, fun ha => ?rx⟩
  case tx =>
    rw [target_of_txWord halign ho ha] at hstep
    exact ⟨_, hstep, fun x => txByte_writeLanes (takeEvent rest s) (bufSize s) o x d,
      writeLanes_putTx_frame (takeEvent rest s) (bufSize s) o d⟩
  case rx =>
    rw [target_of_rxWord halign ho ha] at hstep
    exact ⟨_, hstep, fun x => rxByte_writeLanes (takeEvent rest s) (bufSize s) o x d,
      writeLanes_putRx_frame (takeEvent rest s) (bufSize s) o d⟩

end Sys2Proof.Machine
end

section
/-! The opcode map: which words match a row, and that decode and encode are inverse to each other. -/

namespace Sys2Proof

/-! ### The rows of the map -/

/-- Every row fixes either the whole word, or the word without the bit B. -/
theorem opcodeRow_forms {r : OpcodeRow} (hr : r ∈ opcodeTable) :
    (r.mask = BitVec.allOnes 32 ∧ ∀ b, encode (r.command b) = r.word) ∨
    (r.mask = ~~~1#32 ∧ ∀ b, encode (r.command b) = r.word ||| (BitVec.ofBool b).setWidth 32) := by
  revert r; decide

theorem mnemonic_row_command {r : OpcodeRow} (hr : r ∈ opcodeTable) (b : Bool) :
    (r.command b).mnemonic = r.mnemonic := by
  revert r b; decide

/-- Every command has a row, which its own bit B turns back into the command. -/
theorem exists_row_of_command (i : Instr) :
    ∃ r ∈ opcodeTable, encode i &&& r.mask = r.word ∧ r.command ((encode i).getLsbD 0) = i := by
  cases i
  case enci b | ackenci b | ackchki b => revert b; decide
  all_goals decide

/-- Distinct rows differ in a bit that both their masks keep. -/
theorem opcodeRow_word_eq_of_common_bits :
    ∀ r ∈ opcodeTable, ∀ r' ∈ opcodeTable, r.word &&& r'.mask = r'.word &&& r.mask → r.word = r'.word := by
  decide

theorem opcodeRow_eq_of_word_eq {r r' : OpcodeRow} (hr : r ∈ opcodeTable) (hr' : r' ∈ opcodeTable)
    (h : r.word = r'.word) : r = r' :=
  List.inj_on_of_nodup_map (f := OpcodeRow.word) (l := opcodeTable) (by decide) hr hr' h

/-- At most one row matches a word: two rows that do agree on the bits that both their masks keep. -/
theorem matching_row_unique {w : Word} {r r' : OpcodeRow} (hr : r ∈ opcodeTable) (hr' : r' ∈ opcodeTable)
    (h : w &&& r.mask = r.word) (h' : w &&& r'.mask = r'.word) : r = r' := by
  refine opcodeRow_eq_of_word_eq hr hr' (opcodeRow_word_eq_of_common_bits r hr r' hr' ?_)
  rw [← h, ← h', BitVec.and_assoc, BitVec.and_assoc, BitVec.and_comm r.mask]

/-- A word is its bits above B with its bit B. -/
theorem clear_bit0_or_bit0 (w : Word) : (w &&& ~~~1#32) ||| (BitVec.ofBool (w.getLsbD 0)).setWidth 32 = w := by
  ext i hi
  by_cases h0 : i = 0
  · subst h0; simp
  · simp [h0, -BitVec.reduceNot]

/-- A word that matches a row is the word of the row's command with B = bit 0: no bit is dropped. -/
theorem encode_of_row_matches {w : Word} {r : OpcodeRow} (hr : r ∈ opcodeTable) (h : w &&& r.mask = r.word) :
    encode (r.command (w.getLsbD 0)) = w := by
  rcases opcodeRow_forms hr with ⟨hmask, henc⟩ | ⟨hmask, henc⟩
  · rw [henc, ← h, hmask, BitVec.and_allOnes]
  · rw [henc, ← h, hmask, clear_bit0_or_bit0]

/-! ### The decoder -/

/-- The decoder answers the command of a row exactly when that row matches. -/
theorem decode_eq_ok_iff {w : Word} {i : Instr} :
    decode w = .ok i ↔ ∃ r ∈ opcodeTable, w &&& r.mask = r.word ∧ r.command (w.getLsbD 0) = i := by
  unfold decode
  cases hfind : opcodeTable.find? (fun r => r.holds w) with
  | none =>
    have hnone := List.find?_eq_none.mp hfind
    refine ⟨nofun, ?_⟩
    rintro ⟨r, hr, hmatch, -⟩
    exact absurd (beq_iff_eq.mpr hmatch) (hnone r hr)
  | some r =>
    have hr := List.mem_of_find?_eq_some hfind
    have hmatch : w &&& r.mask = r.word := beq_iff_eq.mp (List.find?_some (p := fun r : OpcodeRow => r.holds w) hfind)
    constructor
    · intro h; exact ⟨r, hr, hmatch, Except.ok.inj h⟩
    · rintro ⟨r', hr', hmatch', rfl⟩
      rw [matching_row_unique hr hr' hmatch hmatch']; rfl

/-- Settles O1: a word that matches a row is that of the row's command, and every command has such a row. -/
theorem decodeInvertsEncode : Obligations.DecodeInvertsEncode := by
  intro w i
  rw [decode_eq_ok_iff]
  constructor
  · rintro ⟨r, hr, hmatch, rfl⟩
    exact encode_of_row_matches hr hmatch
  · rintro rfl
    exact exists_row_of_command i

/-- Settles O2: the three clauses are the uniqueness of the matching row and the two directions of the decoder. -/
theorem opcodeRowsDecideEveryWord : Obligations.OpcodeRowsDecideEveryWord := by
  refine ⟨fun w r r' hr hr' => matching_row_unique hr hr', fun w r hr hmatch => ?_, fun w hnone i hdec => ?_⟩
  · exact ⟨decode_eq_ok_iff.mpr ⟨r, hr, hmatch, rfl⟩, mnemonic_row_command hr _⟩
  · obtain ⟨r, hr, hmatch, -⟩ := decode_eq_ok_iff.mp hdec
    exact hnone r hr hmatch

/-- Settles O4: each word is the word of its command. -/
theorem specWordsDecode : Obligations.SpecWordsDecode := by
  refine ⟨?_, ?_, ?_, ?_, ?_, ?_, ?_, ?_, ?_, ?_⟩ <;> exact (decodeInvertsEncode _ _).mpr rfl

end Sys2Proof
end

section
/-! Illegal words: their fields, and the step that writes one to CMD. -/

namespace Sys2Proof.Machine

/-- The word of a command has legal fields (R84, R87). -/
theorem encode_not_illegalByFields (i : Instr) : ¬ IllegalByFields (encode i) := by
  unfold IllegalByFields
  cases i
  case enci b | ackenci b | ackchki b => revert b; decide
  all_goals decide

/-- Every OPC of the table has a form without an immediate. -/
theorem exists_plain_command {opc : Byte} (h : opc ∈ knownOpcodes) :
    ∃ i : Instr, i.opcode = opc ∧ i.immediate? = none := by
  have hrow : ∃ r ∈ opcodeTable, (r.command false).opcode = opc ∧ (r.command false).immediate? = none := by
    revert opc; decide
  obtain ⟨r, -, hi⟩ := hrow
  exact ⟨_, hi⟩

/-- The OPCs of ENCI, ACKENCI and ACKCHKI have an immediate form. -/
theorem exists_immediate_command {opc : Byte} (h : opc ∈ [0x10#8, 0x12#8, 0x13#8]) (b : Bool) :
    ∃ i : Instr, i.opcode = opc ∧ i.immediate? = some b := by
  simp only [List.mem_cons, List.not_mem_nil, or_false] at h
  obtain rfl | rfl | rfl := h
  · exact ⟨.enci b, rfl, rfl⟩
  · exact ⟨.ackenci b, rfl, rfl⟩
  · exact ⟨.ackchki b, rfl, rfl⟩

/-- Bit `j` of a field is bit `start + j` of the word. -/
theorem getLsbD_field {w : Word} {start len i j : Nat} (hj : j < len) (hi : start + j = i) :
    (w.extractLsb' start len).getLsbD j = w.getLsbD i := by
  rw [BitVec.getLsbD_extractLsb', decide_eq_true hj, Bool.true_and, hi]

/-- A word is its five fields (R84). -/
theorem word_eq_fields (w : Word) :
    w = w.extractLsb' 16 16 ++ w.extractLsb' 8 8 ++ w.extractLsb' 2 6 ++ BitVec.ofBool (w.getLsbD 1) ++
      BitVec.ofBool (w.getLsbD 0) := by
  apply BitVec.eq_of_getLsbD_eq
  intro i hi
  obtain rfl | rfl | ⟨h2, h8⟩ | ⟨h8, h16⟩ | h16 :
      i = 0 ∨ i = 1 ∨ (2 ≤ i ∧ i < 8) ∨ (8 ≤ i ∧ i < 16) ∨ 16 ≤ i := by omega
  · simp [getLsbD_append_low, -BitVec.getLsbD_eq_getElem]
  · simp [getLsbD_append_low, getLsbD_append_high, -BitVec.getLsbD_eq_getElem]
  · rw [getLsbD_append_high (by omega), getLsbD_append_high (by omega), getLsbD_append_low (by omega)]
    exact (getLsbD_field (by omega) (by omega)).symm
  · rw [getLsbD_append_high (by omega), getLsbD_append_high (by omega), getLsbD_append_high (by omega),
      getLsbD_append_low (by omega)]
    exact (getLsbD_field (by omega) (by omega)).symm
  · rw [getLsbD_append_high (by omega), getLsbD_append_high (by omega), getLsbD_append_high (by omega),
      getLsbD_append_high (by omega)]
    exact (getLsbD_field (by omega) (by omega)).symm

/-- A word with legal fields is the word of a command. -/
theorem exists_encode_of_legal_fields {w : Word} (h : ¬ IllegalByFields w) : ∃ i, encode i = w := by
  unfold IllegalByFields at h
  push Not at h
  obtain ⟨hz1, hz0, hplain, himm, hopc⟩ := h
  have hw := word_eq_fields w
  rw [hz1, hz0] at hw
  cases hI : w.getLsbD 1
  case false =>
    obtain ⟨i, hi, hnone⟩ := exists_plain_command hopc
    have hB : w.getLsbD 0 = false := by simpa using hplain hI
    exact ⟨i, by rw [hw, encode, hi, hnone, hI, hB]; rfl⟩
  case true =>
    obtain ⟨i, hi, hsome⟩ := exists_immediate_command (himm hI) (w.getLsbD 0)
    exact ⟨i, by rw [hw, encode, hi, hsome, hI]; rfl⟩

/-- R87's list is that of the words no command has. -/
theorem decode_ne_ok_iff_illegalByFields (w : Word) : (∀ i, decode w ≠ .ok i) ↔ IllegalByFields w := by
  constructor
  · intro hnone
    by_contra hlegal
    obtain ⟨i, hi⟩ := exists_encode_of_legal_fields hlegal
    exact hnone i ((decodeInvertsEncode w i).mpr hi)
  · rintro hill i hdec
    obtain rfl := (decodeInvertsEncode w i).mp hdec
    exact encode_not_illegalByFields i hill

/-- The step of a write to CMD stores the word and performs it (R101, R102). -/
theorem step_of_writesCmd {s : State} {w : Word} {rest : List HostEvent} (h : WritesNext s 0x0000#16 w rest) :
    step s = perform w { s with pending := rest, rdata := none, cmdLast := w } := by
  rw [step_of_writesNext h, hostWrite, show (0x0000#16 : Addr) = regAddr .cmd from rfl, target_regAddr]
  rfl

/-- Performing a word that is no command raises ERR_CMD alone (R87). -/
theorem perform_of_not_command {w : Word} (h : ∀ i, decode w ≠ .ok i) (s : State) :
    perform w s = .next (raise .cmd s) := by
  unfold perform
  split
  · next i hi => exact absurd hi (h i)
  · rfl

/-- Settles O3: R87's list by the round trip of O1, and the step of a write to CMD. -/
theorem illegalWordsOnlySetErrCmd : Obligations.IllegalWordsOnlySetErrCmd := by
  refine ⟨decode_ne_ok_iff_illegalByFields, fun s w rest h hill => ?_⟩
  rw [step_of_writesCmd h, perform_of_not_command ((decode_ne_ok_iff_illegalByFields w).mpr hill)]
  rfl

end Sys2Proof.Machine
end

section
/-! Loading a buffer by the expansions of LDTX and LDRX: the writes of a window's words, then that of the length. -/

namespace Sys2Proof.Machine

/-! ### The two buffers -/

/-- TXBUF and RXBUF (R62). -/
inductive Buffer where
  | tx | rx

/-- The host address of a buffer's offset 0 (R61). -/
def Buffer.window : Buffer → Nat
  | .tx => txWindow
  | .rx => rxWindow

/-- One byte of a buffer (R10). -/
def Buffer.byte : Buffer → State → Nat → Byte
  | .tx => txByte
  | .rx => rxByte

/-- `t` is `s` up to the buffer's bytes, what is pending and what the port last returned. -/
def Buffer.AloneChanges : Buffer → State → State → Prop
  | .tx, s, t => t = { s with pending := t.pending, rdata := t.rdata, txbuf := t.txbuf }
  | .rx, s, t => t = { s with pending := t.pending, rdata := t.rdata, rxbuf := t.rxbuf }

theorem Buffer.AloneChanges.refl (b : Buffer) (s : State) : b.AloneChanges s s := by cases b <;> rfl

theorem Buffer.AloneChanges.trans {b : Buffer} {s t u : State} (hst : b.AloneChanges s t)
    (htu : b.AloneChanges t u) : b.AloneChanges s u := by
  cases b <;> exact Eq.trans htu (by rw [hst])

theorem Buffer.AloneChanges.resetIn_eq {b : Buffer} {s t : State} (h : b.AloneChanges s t) :
    t.resetIn = s.resetIn := by
  cases b <;> rw [h]

theorem Buffer.AloneChanges.maxPacket_eq {b : Buffer} {s t : State} (h : b.AloneChanges s t) :
    maxPacket t = maxPacket s := by
  cases b <;> rw [h] <;> rfl

/-! ### The writes of a window's words -/

/-- The lanes of a word made of four bytes (R64). -/
theorem lane_wordOfLanes (byte : Nat → Byte) {i : Nat} (hi : i < 4) : lane (wordOfLanes byte) i = byte i := by
  obtain rfl | rfl | rfl | rfl : i = 0 ∨ i = 1 ∨ i = 2 ∨ i = 3 := by omega
  all_goals simp [lane, wordOfLanes, extractLsb'_append_low, extractLsb'_append_high]

theorem windowWrites_succ (window n : Nat) (byte : Nat → Byte) :
    windowWrites window (n + 1) byte = windowWrites window n byte ++
      [.wr (BitVec.ofNat 16 (window + 4 * n)) (wordOfLanes fun i => byte (4 * n + i))] := by
  simp [windowWrites, List.range_succ]

@[simp] theorem length_windowWrites (window n : Nat) (byte : Nat → Byte) :
    (windowWrites window n byte).length = n := by simp [windowWrites]

/-- The address of a mapped buffer word does not wrap. -/
theorem windowAddr_toNat {s : State} {o : Nat} (b : Buffer) (ho : o < bufSize s) :
    (BitVec.ofNat 16 (b.window + o)).toNat = b.window + o := by
  have hsize := bufSize_le_window s
  have hwindow : b.window ≤ 0x2000 := by cases b <;> decide
  rw [BitVec.toNat_ofNat]; omega

/-- The step that writes a mapped word of either buffer (R64, R101). -/
theorem step_of_writesWindow (b : Buffer) {s : State} {o : Nat} {d : Word} {rest : List HostEvent}
    (halign : o % 4 = 0) (ho : o < bufSize s) (h : WritesNext s (BitVec.ofNat 16 (b.window + o)) d rest) :
    ∃ t, step s = .next t ∧ t.pending = rest ∧ b.AloneChanges s t ∧
      ∀ x, b.byte t x = if o ≤ x ∧ x < o + 4 ∧ x < bufSize s then lane d (x - o) else b.byte s x := by
  have haddr := windowAddr_toNat b ho
  obtain ⟨htx, hrx⟩ := bufferWordWriteStoresLanes s _ d o rest halign ho h
  cases b
  case tx =>
    obtain ⟨t, hstep, hbytes, hframe⟩ := htx haddr
    exact ⟨t, hstep, by rw [hframe], by rw [Buffer.AloneChanges, hframe], hbytes⟩
  case rx =>
    obtain ⟨t, hstep, hbytes, hframe⟩ := hrx haddr
    exact ⟨t, hstep, by rw [hframe], by rw [Buffer.AloneChanges, hframe], hbytes⟩

/-- A run is its first step and the rest of it. -/
theorem run_succ_of_step {s t : State} (h : step s = .next t) (n : Nat) : core.run (n + 1) s = core.run n t := by
  have hcore : core.step s = .next t := h
  simp only [Host.Core.run, hcore]

/-- Every step answers a next state: the block has no trap (R207). -/
theorem step_next (s : State) : ∃ t, step s = .next t := by
  rcases step_cases s with ⟨-, h⟩ | ⟨rest, -, h⟩ | ⟨rest, -, h⟩ | ⟨e, rest, -, -, -, h⟩ | ⟨a, rest, -, -, h⟩ |
    ⟨a, d, rest, -, -, h⟩ <;> rw [h]
  case inr.inr.inr.inr.inr => exact hostWrite_next a d _
  all_goals exact ⟨_, rfl⟩

/-- A run that answers a next state, and one step more. -/
theorem run_then_step {n : Nat} {s t u : State} (hrun : core.run n s = .next t) (hstep : step t = .next u) :
    core.run (n + 1) s = .next u := by
  induction n generalizing s with
  | zero =>
    obtain rfl := Host.Outcome.next.inj hrun
    exact run_succ_of_step hstep 0
  | succ n ih =>
    obtain ⟨v, hv⟩ := step_next s
    rw [run_succ_of_step hv] at hrun ⊢
    exact ih hrun

/-- Serving the writes of the first `n` words of a window, each at least partially mapped, stores their bytes below
BUF_SIZE. -/
theorem run_windowWrites (b : Buffer) (byte : Nat → Byte) {s : State} (hin : s.resetIn = false) (n : Nat)
    (hn : 4 * n < bufSize s + 4) {rest : List HostEvent} (hp : s.pending = windowWrites b.window n byte ++ rest) :
    ∃ t, core.run n s = .next t ∧ t.pending = rest ∧ b.AloneChanges s t ∧
      ∀ x, b.byte t x = if x < 4 * n ∧ x < bufSize s then byte x else b.byte s x := by
  induction n generalizing rest with
  | zero => exact ⟨s, rfl, hp, .refl b s, by simp⟩
  | succ n ih =>
    rw [windowWrites_succ, List.append_assoc] at hp
    obtain ⟨t, hrun, hpt, hst, hbytes⟩ := ih (by omega) hp
    have hsize : bufSize t = bufSize s := congrArg (· + 3) hst.maxPacket_eq
    obtain ⟨u, hstep, hpu, htu, hword⟩ :=
      step_of_writesWindow b (o := 4 * n) (by omega) (by omega) ⟨hst.resetIn_eq.trans hin, hpt⟩
    refine ⟨u, run_then_step hrun hstep, hpu, hst.trans htu, fun x => ?_⟩
    rw [hword, hbytes, hsize]
    by_cases hnew : 4 * n ≤ x ∧ x < 4 * n + 4 ∧ x < bufSize s
    · rw [if_pos hnew, if_pos (by omega), lane_wordOfLanes _ (by omega), Nat.add_sub_cancel' hnew.1]
    · rw [if_neg hnew]
      exact if_congr (by omega) rfl rfl

/-! ### The writes of the lengths -/

/-- The low half of the word that LDTX and LDRX write to the length register. -/
theorem lengthWord_low (n : Nat) : (BitVec.ofNat 32 n).extractLsb' 0 16 = BitVec.ofNat 16 n := by
  apply BitVec.eq_of_toNat_eq
  simp

/-- No length in range wraps (R5). -/
theorem length_toNat {s : State} {n : Nat} (h : n ≤ bufSize s) : (BitVec.ofNat 16 n).toNat = n := by
  have hsize := bufSize_le_window s
  rw [BitVec.toNat_ofNat]; omega

theorem step_of_writesTxlen {s : State} {n : Nat} {rest : List HostEvent} (hn : n ≤ maxPacket s)
    (h : WritesNext s (regAddr .txlen) (BitVec.ofNat 32 n) rest) :
    step s = .next { s with pending := rest, rdata := none, txplen := BitVec.ofNat 16 n } := by
  have hlen : ((BitVec.ofNat 32 n).extractLsb' 0 16).toNat ≤ maxPacket (takeEvent rest s) := by
    rw [lengthWord_low, length_toNat (s := s) (hn.trans (Nat.le_add_right _ 3))]; exact hn
  rw [step_of_writesReg (r := .txlen) (by decide) h, writeReg_txlen_of_le hlen, lengthWord_low]; rfl

theorem step_of_writesRxlen {s : State} {n : Nat} {rest : List HostEvent} (hn : n ≤ bufSize s)
    (h : WritesNext s (regAddr .rxlen) (BitVec.ofNat 32 n) rest) :
    step s = .next { s with pending := rest, rdata := none, rxflen := BitVec.ofNat 16 n } := by
  have hlen : ((BitVec.ofNat 32 n).extractLsb' 0 16).toNat ≤ maxPacket (takeEvent rest s) + 3 := by
    rw [lengthWord_low, length_toNat hn]; exact hn
  rw [step_of_writesReg (r := .rxlen) (by decide) h, writeReg_rxlen_of_le hlen, lengthWord_low]; rfl

/-! ### What a loaded buffer holds -/

/-- The bytes of a list, read in order. -/
theorem map_range_eq_of_getD {l : List Byte} {f : Nat → Byte} (h : ∀ j < l.length, f j = l.getD j 0x00#8) :
    (List.range l.length).map f = l := by
  apply List.ext_getElem (by simp)
  intro j hj hj'
  rw [List.getElem_map, List.getElem_range, h j hj', List.getD_eq_getElem _ _ hj']

/-- Settles O27: the writes of the window's words, then that of the length; the payload and the frame lie in those
words and below BUF_SIZE. -/
theorem loadPseudosFillTheBuffers : Obligations.LoadPseudosFillTheBuffers := by
  refine ⟨fun s p hin hlen hp => ?ldtx, fun s f hin hlen hp => ?ldrx⟩
  case ldtx =>
    obtain ⟨t, hrun, hpt, hst, hbytes⟩ := run_windowWrites .tx _ hin _ (by simp only [bufSize]; omega) hp
    have hstep := step_of_writesTxlen (hlen.trans_eq hst.maxPacket_eq.symm) ⟨hst.resetIn_eq.trans hin, hpt⟩
    have htxplen : (BitVec.ofNat 16 p.length).toNat = p.length := length_toNat (s := s) (by simp only [bufSize]; omega)
    refine ⟨{ t with pending := [], rdata := none, txplen := BitVec.ofNat 16 p.length },
      ?run, ?payload, hbytes, ?frame⟩
    case run =>
      rw [expandPseudo, List.length_append, length_windowWrites]
      exact run_then_step hrun hstep
    case payload =>
      rw [txPayload, htxplen]
      refine map_range_eq_of_getD fun j hj => (hbytes (3 + j)).trans ?_
      rw [if_pos ⟨by omega, by simp only [bufSize]; omega⟩, if_pos (by omega), Nat.add_sub_cancel_left]
    case frame => rw [hst]
  case ldrx =>
    obtain ⟨t, hrun, hpt, hst, hbytes⟩ := run_windowWrites .rx _ hin _ (by simp only [bufSize]; omega) hp
    have hsize : bufSize t = bufSize s := congrArg (· + 3) hst.maxPacket_eq
    have hstep := step_of_writesRxlen (hlen.trans_eq hsize.symm) ⟨hst.resetIn_eq.trans hin, hpt⟩
    refine ⟨{ t with pending := [], rdata := none, rxflen := BitVec.ofNat 16 f.length },
      ?run, ?received, hbytes, ?frame⟩
    case run =>
      rw [expandPseudo, List.length_append, length_windowWrites]
      exact run_then_step hrun hstep
    case received =>
      rw [rxFrame, length_toNat hlen]
      refine map_range_eq_of_getD fun j hj => (hbytes j).trans ?_
      rw [if_pos ⟨by omega, by simp only [bufSize]; omega⟩]
    case frame => rw [hst]

end Sys2Proof.Machine
end

section
/-! The step that writes a legal word to CMD, and NOP, whose word is 0. -/

namespace Sys2Proof.Machine

/-- Performing the word of a command is executing it (R102). -/
theorem perform_of_decode {w : Word} {i : Instr} (h : decode w = .ok i) (s : State) : perform w s = exec i s := by
  rw [perform, h]

/-- Settles O5: the write to CMD stores the word and performs it, and it decodes to `i`. -/
theorem stepRunsDecodedCommand : Obligations.StepRunsDecodedCommand := by
  intro s w rest i hwrites hdec
  rw [step_of_writesCmd hwrites, perform_of_decode hdec]

theorem encode_nop : encode .nop = 0x00000000#32 := rfl

/-- NOP keeps the state (R103). -/
theorem exec_nop (s : State) : exec .nop s = .next s := rfl

/-- Settles O28: by O5 the step runs NOP, in the state in which the word is already stored. -/
theorem nopOnlyStoresItsWord : Obligations.NopOnlyStoresItsWord := by
  refine ⟨encode_nop, exec_nop, fun s rest hwrites => ?_⟩
  have hdec : decode 0x00000000#32 = .ok .nop := (decodeInvertsEncode _ _).mpr encode_nop
  rw [stepRunsDecodedCommand s _ rest .nop hwrites hdec, exec_nop]

end Sys2Proof.Machine
end

section
/-! fold16 (R120): its closed form, and the streaming accumulator (R130). -/

namespace Sys2Proof.Machine

/-! ### The loop of R120 -/

theorem fold16_of_le {t : Nat} (h : t ≤ 0xFFFF) : fold16 t = t := by
  have hstop : ¬ 0xFFFF < t := Nat.not_lt.mpr h
  cases t <;> simp [fold16, foldTurns, hstop]

theorem fold16_of_gt {t : Nat} (h : 0xFFFF < t) : fold16 t = fold16 (t % 0x10000 + t / 0x10000) := by
  have hlt := foldTurn_lt h
  obtain ⟨n, rfl⟩ := Nat.exists_eq_add_of_lt h
  have hturn : fold16 (0xFFFF + n + 1) =
      foldTurns (0xFFFF + n) ((0xFFFF + n + 1) % 0x10000 + (0xFFFF + n + 1) / 0x10000) := by
    rw [fold16, foldTurns, if_pos h]
  rw [hturn, fold16]
  exact foldTurns_enough _ (Nat.le_of_lt_succ hlt) le_rfl

/-- The residue modulo 65535 that lies in 1..0xFFFF, for a positive argument. -/
theorem fold16_eq (t : Nat) : fold16 t = if t = 0 then 0 else (t - 1) % 65535 + 1 := by
  induction t using Nat.strong_induction_on with
  | h t ih =>
    by_cases h : t ≤ 0xFFFF
    · rw [fold16_of_le h]; split <;> omega
    · have hgt : 0xFFFF < t := by omega
      rw [fold16_of_gt hgt, ih _ (foldTurn_lt hgt)]
      split <;> split <;> omega

theorem fold16_le (t : Nat) : fold16 t ≤ 0xFFFF := by rw [fold16_eq]; split <;> omega

theorem fold16_modEq (t : Nat) : fold16 t ≡ t [MOD 65535] := by
  rw [fold16_eq]; unfold Nat.ModEq; split <;> omega

theorem fold16_eq_zero_iff (t : Nat) : fold16 t = 0 ↔ t = 0 := by rw [fold16_eq]; split <;> omega

/-- The one's complement zero: the fold is 0xFFFF exactly for the positive multiples of 65535. -/
theorem fold16_eq_max_iff (t : Nat) : fold16 t = 0xFFFF ↔ 0 < t ∧ t % 65535 = 0 := by
  rw [fold16_eq]; split <;> omega

/-- Settles O41: one turn of the loop, and the rest from the closed form. -/
theorem foldIsTheEndAroundCarryLoop : Obligations.FoldIsTheEndAroundCarryLoop := by
  refine ⟨fun t => fold16_of_le, fun t h => ?turn, fold16_modEq, fold16_eq_zero_iff, fun t h => ?range⟩
  case turn =>
    have hlow : t &&& 0xFFFF = t % 0x10000 := Nat.and_two_pow_sub_one_eq_mod t 16
    rw [hlow, Nat.shiftRight_eq_div_pow]
    exact fold16_of_gt h
  case range =>
    have hne : fold16 t ≠ 0 := (fold16_eq_zero_iff t).not.mpr (by omega)
    exact ⟨by omega, fold16_le t⟩

/-! ### The accumulator of R130 -/

/-- Every word of a frame is a 16-bit word. -/
theorem le_of_mem_pairWords {f : List Byte} {w : Nat} (h : w ∈ pairWords f) : w ≤ 0xFFFF := by
  induction f using pairWords.induct with
  | case1 => simp [pairWords] at h
  | case2 a =>
    obtain rfl : w = a.toNat := by simpa [pairWords] using h
    have := a.isLt
    omega
  | case3 a b rest ih =>
    rcases List.mem_cons.mp h with rfl | h
    · have := a.isLt; have := b.isLt; omega
    · exact ih h

/-- Folding after each addition is folding the sum. -/
theorem accumulate_fold16 (t : Nat) {w : Nat} (h : w ≤ 0xFFFF) : accumulate (fold16 t) w = fold16 (t + w) := by
  rw [accumulate, fold16_eq, fold16_eq]
  split_ifs <;> omega

theorem foldl_accumulate_fold16 {ws : List Nat} (h : ∀ w ∈ ws, w ≤ 0xFFFF) (t : Nat) :
    ws.foldl accumulate (fold16 t) = fold16 (t + ws.sum) := by
  induction ws generalizing t with
  | nil => rfl
  | cons w ws ih =>
    obtain ⟨hw, hws⟩ := List.forall_mem_cons.mp h
    rw [List.foldl_cons, accumulate_fold16 t hw, ih hws, List.sum_cons, Nat.add_assoc]

/-- Settles O43: the words in any order have the same sum, and folding as one goes is folding that sum. -/
theorem accumulationOrderDoesNotMatter : Obligations.AccumulationOrderDoesNotMatter := by
  intro f ws hperm
  have hbound : ∀ w ∈ ws, w ≤ 0xFFFF := fun w hw => le_of_mem_pairWords (hperm.mem_iff.mp hw)
  calc ws.foldl accumulate 0
      = ws.foldl accumulate (fold16 0) := rfl
    _ = fold16 ws.sum := by rw [foldl_accumulate_fold16 hbound, Nat.zero_add]
    _ = fold16 (wordSum f) := by rw [hperm.sum_eq, wordSum]

end Sys2Proof.Machine
end

section
/-! The sum of a frame's words: by its pairs, and under a change of one byte, an append and an inserted header. -/

namespace Sys2Proof.Machine

/-! ### The words by their place -/

/-- The k-th word of a frame, an absent byte counted as 0x00 (R121). -/
def pairAt (f : List Byte) (k : Nat) : Nat := (f.getD (2 * k) 0x00#8).toNat + 256 * (f.getD (2 * k + 1) 0x00#8).toNat

theorem pairWords_eq_map_pairAt (f : List Byte) : pairWords f = (List.range ((f.length + 1) / 2)).map (pairAt f) := by
  induction f using pairWords.induct with
  | case1 => rfl
  | case2 a => simp [pairWords, pairAt]
  | case3 a b rest ih =>
    have hlen : ((a :: b :: rest).length + 1) / 2 = (rest.length + 1) / 2 + 1 := by
      simp only [List.length_cons]; omega
    rw [hlen, List.range_succ_eq_map, pairWords, ih, List.map_cons, List.map_map]
    rfl

/-- The two bytes of a word side by side. -/
theorem byte_or_shiftLeft (a b : Byte) : a.toNat ||| (b.toNat <<< 8) = a.toNat + 256 * b.toNat := by
  rw [Nat.or_comm, ← Nat.shiftLeft_add_eq_or_of_lt a.isLt, Nat.shiftLeft_eq]
  omega

theorem getD_append_zero (s : List Byte) (i : Nat) : (s ++ [0x00#8]).getD i 0x00#8 = s.getD i 0x00#8 := by
  rcases Nat.lt_trichotomy i s.length with h | rfl | h
  · rw [List.getD_append _ _ _ _ h]
  · simp
  · have hlen : (s ++ [0x00#8]).length ≤ i := by rw [List.length_append, List.length_singleton]; omega
    rw [List.getD_eq_default _ _ hlen, List.getD_eq_default _ _ h.le]

theorem csum16_toNat_eq (f : List Byte) : (csum16 f).toNat = 0xFFFF - fold16 (wordSum f) := by
  rw [csum16_toNat, Nat.mod_eq_of_lt]
  exact Nat.lt_succ_of_le (fold16_le _)

/-- A frame passes exactly when its word sum is a positive multiple of 65535. -/
theorem csum16_eq_zero_iff (f : List Byte) : csum16 f = 0x0000#16 ↔ 0 < wordSum f ∧ wordSum f % 65535 = 0 := by
  rw [← fold16_eq_max_iff, ← BitVec.toNat_inj, csum16_toNat_eq, BitVec.toNat_ofNat]
  have := fold16_le (wordSum f)
  omega

theorem csum16_eq_of_wordSum_eq {f g : List Byte} (h : wordSum f = wordSum g) : csum16 f = csum16 g := by
  rw [csum16, csum16, h]

/-- Settles O42: the padded sequence has the words of the sequence itself, one for each two bytes begun. -/
theorem checksumIsTheComplementedPairSum : Obligations.ChecksumIsTheComplementedPairSum := by
  refine ⟨by decide, fun s => ?_⟩
  intro p t
  have hlen : p.length / 2 = (s.length + 1) / 2 := by
    simp only [p]
    split
    · omega
    · simp
  have hbyte (i : Nat) : p.getD i 0x00#8 = s.getD i 0x00#8 := by
    simp only [p]
    split
    · rfl
    · exact getD_append_zero s i
  have hsum : t = wordSum s := by
    simp only [t, hlen, hbyte, byte_or_shiftLeft, wordSum, pairWords_eq_map_pairAt]
    rfl
  rw [csum16_toNat_eq, hsum]

/-! ### Changes of a frame -/

/-- What one unit of the byte at offset `i` adds to the word sum: the first byte of a pair is the low one (R121). -/
def byteWeight (i : Nat) : Nat := if i % 2 = 0 then 1 else 256

@[simp] theorem byteWeight_zero : byteWeight 0 = 1 := rfl

@[simp] theorem byteWeight_one : byteWeight 1 = 256 := rfl

@[simp] theorem byteWeight_add_two (i : Nat) : byteWeight (i + 2) = byteWeight i := by simp [byteWeight]

theorem byteWeight_eq_of_parity {i j : Nat} (h : i % 2 = j % 2) : byteWeight i = byteWeight j := by
  simp [byteWeight, h]

/-- A byte replaced takes its own share of the sum with it and brings that of the new byte. -/
theorem wordSum_set {f : List Byte} {i : Nat} (h : i < f.length) (v : Byte) :
    wordSum (f.set i v) + byteWeight i * (f.getD i 0x00#8).toNat = wordSum f + byteWeight i * v.toNat := by
  induction f using pairWords.induct generalizing i with
  | case1 => simp at h
  | case2 a =>
    obtain rfl : i = 0 := by simpa using h
    simp [byteWeight, Nat.add_comm]
  | case3 a b rest ih =>
    match i with
    | 0 =>
      simp only [List.set_cons_zero, List.getD_cons_zero, wordSum_cons_cons, byteWeight_zero]
      omega
    | 1 =>
      simp only [List.set_cons_succ, List.set_cons_zero, List.getD_cons_succ, List.getD_cons_zero, wordSum_cons_cons,
        byteWeight_one]
      omega
    | i + 2 =>
      have hi : i < rest.length := by simpa using h
      have hrest := ih hi
      simp only [List.set_cons_succ, List.getD_cons_succ, wordSum_cons_cons, byteWeight_add_two]
      omega

/-- Appending to whole words keeps the pairs of both parts. -/
theorem wordSum_append {f : List Byte} (h : f.length % 2 = 0) (g : List Byte) :
    wordSum (f ++ g) = wordSum f + wordSum g := by
  induction f using pairWords.induct with
  | case1 => simp
  | case2 a => simp at h
  | case3 a b rest ih =>
    have hrest : rest.length % 2 = 0 := by
      simp only [List.length_cons] at h; omega
    simp only [List.cons_append, wordSum_cons_cons, ih hrest]
    omega

theorem wordSum_append_zero (f : List Byte) : wordSum (f ++ [0x00#8]) = wordSum f := by
  induction f using pairWords.induct with
  | case1 => rfl
  | case2 a => simp
  | case3 a b rest ih => simp only [List.cons_append, wordSum_cons_cons, ih]

theorem wordSum_append_zeros (f : List Byte) (k : Nat) : wordSum (f ++ List.replicate k 0x00#8) = wordSum f := by
  induction k with
  | zero => simp
  | succ k ih => rw [List.replicate_succ', ← List.append_assoc, wordSum_append_zero, ih]

/-- The two bytes of the checksum field stand across a word boundary and leave the payload's bytes at their parity. -/
theorem wordSum_insert_field (a hi lo : Byte) (p : List Byte) :
    wordSum (a :: hi :: lo :: p) = wordSum (a :: p) + (256 * hi.toNat + lo.toNat) := by
  cases p with
  | nil =>
    simp only [wordSum_cons_cons, wordSum_single]
    omega
  | cons x rest =>
    simp only [wordSum_cons_cons]
    omega

end Sys2Proof.Machine
end

section
/-! What the checksum detects: encoded frames pass (R131), a flipped bit is seen, a kept residue is not (R132). -/

namespace Sys2Proof.Machine

/-! ### Encoded frames -/

/-- The value of a 16-bit word by its bytes. -/
theorem half_toNat_eq_bytes (c : Half) : 256 * (c.extractLsb' 8 8).toNat + (c.extractLsb' 0 8).toNat = c.toNat := by
  simp only [BitVec.extractLsb'_toNat, Nat.shiftRight_eq_div_pow]
  omega

/-- The field adds what the folded sum lacks to 0xFFFF, so the sum of the frame is a positive multiple of 65535. -/
theorem csum16_encoded (a : Byte) (p : List Byte) :
    csum16 (a :: (csum16 (a :: p)).extractLsb' 8 8 :: (csum16 (a :: p)).extractLsb' 0 8 :: p) = 0x0000#16 := by
  rw [csum16_eq_zero_iff, wordSum_insert_field, half_toNat_eq_bytes, csum16_toNat_eq, fold16_eq]
  split <;> omega

/-! ### One flipped bit -/

theorem toNat_xor_twoPow_of_clear {w j : Nat} {x : BitVec w} (hj : j < w) (h : x.getLsbD j = false) :
    (x ^^^ BitVec.twoPow w j).toNat = x.toNat + 2 ^ j := by
  have hand : x &&& BitVec.twoPow w j = 0#w := by simp [BitVec.and_twoPow, h]
  have hxor : x ^^^ BitVec.twoPow w j = x + BitVec.twoPow w j := by
    rw [BitVec.add_eq_or_of_and_eq_zero _ _ hand]
    ext i hi
    have hbit := congrArg (·.getLsbD i) hand
    simp only [BitVec.getLsbD_and, BitVec.getLsbD_zero] at hbit
    cases hx : x.getLsbD i <;> simp_all [BitVec.getLsbD_eq_getElem]
  rw [hxor, BitVec.toNat_add_of_and_eq_zero hand, BitVec.toNat_twoPow_of_lt hj]

/-- Flipping bit `j` moves the value up or down by its weight. -/
theorem toNat_xor_twoPow {w j : Nat} (x : BitVec w) (hj : j < w) :
    (x ^^^ BitVec.twoPow w j).toNat = x.toNat + 2 ^ j ∨ x.toNat = (x ^^^ BitVec.twoPow w j).toNat + 2 ^ j := by
  cases h : x.getLsbD j with
  | false => exact .inl (toNat_xor_twoPow_of_clear hj h)
  | true =>
    have hclear : (x ^^^ BitVec.twoPow w j).getLsbD j = false := by simp [h, hj]
    have hback := toNat_xor_twoPow_of_clear hj hclear
    rw [BitVec.xor_assoc, BitVec.xor_self, BitVec.xor_zero] at hback
    exact .inr hback

/-- The weight of a bit within its word is a power of two below 2^16, so no multiple of 65535. -/
theorem bitWeight_lt (i : Nat) {j : Nat} (hj : j < 8) : 0 < byteWeight i * 2 ^ j ∧ byteWeight i * 2 ^ j < 65535 := by
  have hpow : 2 ^ j ≤ 2 ^ 7 := Nat.pow_le_pow_right (by omega) (by omega)
  have hpos : 0 < 2 ^ j := Nat.two_pow_pos j
  unfold byteWeight
  split <;> omega

/-- Settles O45: the sum moves up or down by the weight of the bit, out of the residue class 0. -/
theorem singleBitFlipIsDetected : Obligations.SingleBitFlipIsDetected := by
  intro f i j hi hj hpass hpass'
  have hbit : 0x01#8 <<< j = BitVec.twoPow 8 j := (BitVec.twoPow_eq 8 j).symm
  rw [hbit] at hpass'
  obtain ⟨-, hmod⟩ := (csum16_eq_zero_iff _).mp hpass
  obtain ⟨-, hmod'⟩ := (csum16_eq_zero_iff _).mp hpass'
  have hset := wordSum_set hi (f.getD i 0x00#8 ^^^ BitVec.twoPow 8 j)
  have hweight := bitWeight_lt i hj
  rcases toNat_xor_twoPow (f.getD i 0x00#8) hj with hflip | hflip
  · rw [hflip, Nat.mul_add] at hset; omega
  · rw [hflip, Nat.mul_add] at hset; omega

/-! ### Blind spots -/

theorem csum16_eq_zero_of_modEq {f g : List Byte} (hf : csum16 f = 0x0000#16) (hpos : 0 < wordSum g)
    (hmod : wordSum g ≡ wordSum f [MOD 65535]) : csum16 g = 0x0000#16 := by
  obtain ⟨-, hzero⟩ := (csum16_eq_zero_iff f).mp hf
  exact (csum16_eq_zero_iff g).mpr ⟨hpos, Eq.trans hmod hzero⟩

/-- Two bytes of the same weight may change places. -/
theorem wordSum_swap {f : List Byte} {i j : Nat} (hi : i < f.length) (hj : j < f.length) (hparity : i % 2 = j % 2) :
    wordSum ((f.set i (f.getD j 0x00#8)).set j (f.getD i 0x00#8)) = wordSum f := by
  have hj' : j < (f.set i (f.getD j 0x00#8)).length := by simpa using hj
  have hfirst := wordSum_set hi (f.getD j 0x00#8)
  have hsecond := wordSum_set hj' (f.getD i 0x00#8)
  have hread : (f.set i (f.getD j 0x00#8)).getD j 0x00#8 = f.getD j 0x00#8 := by
    by_cases hij : i = j
    · subst hij; simp [hi]
    · simp [List.getD, List.getElem?_set_ne hij]
  rw [hread, ← byteWeight_eq_of_parity hparity] at hsecond
  omega

/-- Settles O46: the residue decides, and a swap and appended zeros keep the sum itself. -/
theorem checksumBlindSpots : Obligations.ChecksumBlindSpots := by
  refine ⟨fun f g => csum16_eq_zero_of_modEq, fun f g heven hpass => ?word, fun f i j hi hj hparity => ?swap,
    fun f k => ?zeros, fun n => ?allZero⟩
  case word =>
    have hsum (a b : Byte) : wordSum (f ++ [a, b] ++ g) = wordSum f + (a.toNat + 256 * b.toNat) + wordSum g := by
      have heven' : (f ++ [a, b]).length % 2 = 0 := by simpa using heven
      rw [wordSum_append heven', wordSum_append heven, wordSum_cons_cons, wordSum_nil, Nat.add_zero]
    rw [csum16_eq_zero_iff, hsum] at hpass ⊢
    simp only [BitVec.toNat_ofNat] at hpass ⊢
    omega
  case swap => exact csum16_eq_of_wordSum_eq (wordSum_swap hi hj hparity)
  case zeros => exact csum16_eq_of_wordSum_eq (wordSum_append_zeros f k)
  case allZero =>
    calc csum16 (List.replicate n 0x00#8)
        = csum16 ([] ++ List.replicate n 0x00#8) := by rw [List.nil_append]
      _ = csum16 [] := csum16_eq_of_wordSum_eq (wordSum_append_zeros [] n)
      _ = 0xFFFF#16 := by decide

end Sys2Proof.Machine
end

section
/-! Repeated and interchanged writes to a buffer: what makes a header written twice the header written once. -/

namespace Sys2Proof.Machine

theorem Memory.put_put_same (m : Memory) (x : Nat) (v : Byte) : (m.put x v).put x v = m.put x v := by
  induction m with
  | nil => simp [Memory.put]
  | cons c rest ih =>
    obtain ⟨o, b⟩ := c
    rcases Nat.lt_trichotomy x o with h | rfl | h
    · simp [Memory.put, h]
    · simp [Memory.put]
    · simp [Memory.put, h.not_gt, h.ne', ih]

/-- Writes to different offsets may be interchanged, in any list of cells. -/
theorem Memory.put_comm_of_lt (m : Memory) {x y : Nat} (v w : Byte) (h : x < y) :
    (m.put y w).put x v = (m.put x v).put y w := by
  induction m with
  | nil => simp [Memory.put, h, h.not_gt, h.ne']
  | cons c rest ih =>
    obtain ⟨o, b⟩ := c
    rcases Nat.lt_trichotomy x o with hx | rfl | hx
    · rcases Nat.lt_trichotomy y o with hy | rfl | hy
      · simp [Memory.put, h, hx, hy, h.not_gt, h.ne']
      · simp [Memory.put, h, h.not_gt, h.ne']
      · simp [Memory.put, hx, hy.not_gt, hy.ne', h.not_gt, h.ne']
    · simp [Memory.put, h.not_gt, h.ne']
    · have hy : o < y := hx.trans h
      simp [Memory.put, hx.not_gt, hx.ne', hy.not_gt, hy.ne', ih]

/-- Writing the same header again changes nothing. -/
theorem putHeader_putHeader (b : Bool) (c : Half) (m : Memory) : putHeader b c (putHeader b c m) = putHeader b c m := by
  have h01 (m : Memory) (v w : Byte) : (m.put 1 w).put 0 v = (m.put 0 v).put 1 w := m.put_comm_of_lt v w (by omega)
  have h02 (m : Memory) (v w : Byte) : (m.put 2 w).put 0 v = (m.put 0 v).put 2 w := m.put_comm_of_lt v w (by omega)
  have h12 (m : Memory) (v w : Byte) : (m.put 2 w).put 1 v = (m.put 1 v).put 2 w := m.put_comm_of_lt v w (by omega)
  simp only [putHeader, h01, h02, h12, Memory.put_put_same]

end Sys2Proof.Machine
end

section
/-! The codec commands (41_codec.md): what each answers, and the fields of the state it answers. -/

namespace Sys2Proof.Machine

/-! ### Meanings -/

theorem exec_enc (s : State) : exec .enc s = .next (encodeFrame s.seq.txSeq s) := rfl

theorem exec_enci (b : Bool) (s : State) : exec (.enci b) s = .next (encodeFrame b s) := rfl

theorem exec_verify (s : State) : exec .verify s = .next (verifyFrame s) := rfl

theorem exec_ackenc (s : State) : exec .ackenc s = .next (setAck s.rxhdr.rxSeq s.rxhdr.seqV s) := rfl

theorem exec_ackenci (b : Bool) (s : State) : exec (.ackenci b) s = .next (setAck (seqByte b) true s) := rfl

theorem exec_ackchk (s : State) : exec .ackchk s = .next (checkAck s.seq.txSeq s) := rfl

theorem exec_ackchki (b : Bool) (s : State) : exec (.ackchki b) s = .next (checkAck b s) := rfl

/-! ### The encoder -/

@[simp] theorem txByte_encodeFrame_zero (b : Bool) (s : State) : txByte (encodeFrame b s) 0 = seqByte b := by
  simp [txByte_encodeFrame]

@[simp] theorem txByte_encodeFrame_one (b : Bool) (s : State) :
    txByte (encodeFrame b s) 1 = (encodeFrame b s).csum.extractLsb' 8 8 := by simp [txByte_encodeFrame]

@[simp] theorem txByte_encodeFrame_two (b : Bool) (s : State) :
    txByte (encodeFrame b s) 2 = (encodeFrame b s).csum.extractLsb' 0 8 := by simp [txByte_encodeFrame]

theorem txByte_encodeFrame_payload (b : Bool) (s : State) {o : Nat} (h : 3 ≤ o) :
    txByte (encodeFrame b s) o = txByte s o := by
  rw [txByte_encodeFrame, if_neg (by omega), if_neg (by omega), if_neg (by omega)]

@[simp] theorem txPayload_encodeFrame (b : Bool) (s : State) : txPayload (encodeFrame b s) = txPayload s :=
  List.map_congr_left fun j _ => txByte_encodeFrame_payload b s (Nat.le_add_right 3 j)

/-- A frame is its three header bytes and its payload (R63). -/
theorem txFrame_eq_header_payload (s : State) : txFrame s = txByte s 0 :: txByte s 1 :: txByte s 2 :: txPayload s := by
  have hmap : (List.range s.txplen.toNat).map (txByte s ∘ fun j => 3 + j) = txPayload s := rfl
  rw [txFrame, Nat.add_comm, List.range_add, List.map_append, List.map_map, hmap]
  rfl

theorem txFrame_encodeFrame (b : Bool) (s : State) :
    txFrame (encodeFrame b s) = seqByte b :: (encodeFrame b s).csum.extractLsb' 8 8 ::
      (encodeFrame b s).csum.extractLsb' 0 8 :: txPayload s := by
  rw [txFrame_eq_header_payload, txByte_encodeFrame_zero, txByte_encodeFrame_one, txByte_encodeFrame_two,
    txPayload_encodeFrame]

/-- The encoder reads the payload only, which it leaves: a second run writes the same bytes. -/
theorem encodeFrame_encodeFrame (b : Bool) (s : State) : encodeFrame b (encodeFrame b s) = encodeFrame b s := by
  have hsum : frameChecksum b (encodeFrame b s) = frameChecksum b s := by simp [frameChecksum]
  rw [encodeFrame, hsum, encodeFrame_txbuf, putHeader_putHeader]
  rfl

theorem exec_enci_encodeFrame (b : Bool) (s : State) :
    exec (.enci b) (encodeFrame b s) = .next (encodeFrame b s) := by
  rw [exec_enci, encodeFrame_encodeFrame]

/-- TX_SEQ plays no part in the encoder: it is neither read nor changed (R124). -/
theorem encodeFrame_setSeq (b : Bool) (s : State) (q : SeqBits) :
    encodeFrame b { s with seq := q } = { encodeFrame b s with seq := q } := rfl

/-- ENC is ENCI with TX_SEQ for the immediate bit (R124). -/
theorem exec_enci_txSeq (s : State) : exec (.enci s.seq.txSeq) s = exec .enc s := by rw [exec_enci, exec_enc]

/-- Settles O30: the header bytes, the frame and the second run of the encoder, for the immediate bit. -/
theorem enciWritesTheFrameHeader : Obligations.EnciWritesTheFrameHeader := by
  refine ⟨rfl, rfl, fun s b => ?_, exec_enci_txSeq⟩
  refine ⟨encodeFrame b s, exec_enci b s, encodeFrame_csum b s, txByte_encodeFrame_zero b s,
    txByte_encodeFrame_one b s, txByte_encodeFrame_two b s, fun o => txByte_encodeFrame_payload b s,
    encodeFrame_frame b s, txFrame_encodeFrame b s, exec_enci_encodeFrame b s, ?_⟩
  rw [exec_enci, encodeFrame_setSeq]

/-- Settles O29: the facts of ENCI for the bit TX_SEQ, which the encoder keeps. -/
theorem encWritesTheFrameHeader : Obligations.EncWritesTheFrameHeader := by
  refine ⟨rfl, fun s => ?_⟩
  obtain ⟨-, -, henci, -⟩ := enciWritesTheFrameHeader
  obtain ⟨t, hexec, hcsum, hzero, hone, htwo, hpayload, hframe, htx, hagain, -⟩ := henci s s.seq.txSeq
  have hseq : t.seq = s.seq := by rw [hframe]
  refine ⟨t, (exec_enci_txSeq s).symm.trans hexec, hcsum, hzero, hone, htwo, hpayload, hframe, htx, ?_⟩
  rw [← exec_enci_txSeq, hseq, hagain]

/-! ### VERIFY -/

/-- A 16-bit field read big-endian: the first byte is the high one. -/
theorem append_eq_shiftLeft_or (hi lo : Byte) : hi ++ lo = hi.setWidth 16 <<< 8 ||| lo.setWidth 16 := by
  have h := BitVec.setWidth_append_eq_shiftLeft_setWidth_or (w'' := 16) (b := hi) (b' := lo)
  rwa [BitVec.setWidth_eq] at h

theorem isCorrupt_eq (f : List Byte) : isCorrupt f = decide (csum16 f ≠ 0x0000#16) := by
  by_cases h : csum16 f = 0x0000#16 <;> simp [isCorrupt, h]

theorem verifyStatus_rxFrame (s : State) (b : Bool) (st : Status) :
    verifyStatus (rxFrame s) b st = { st with
      corrupt := decide (csum16 (rxFrame s) ≠ 0x0000#16)
      short := decide (s.rxflen.toNat < 3)
      empty := decide (s.rxflen.toNat = 0)
      seqMatch := decide (1 ≤ s.rxflen.toNat ∧ rxByte s 0 = seqByte b)
      frameOk := decide (3 ≤ s.rxflen.toNat ∧ csum16 (rxFrame s) = 0x0000#16)
      accept := decide ((3 ≤ s.rxflen.toNat ∧ csum16 (rxFrame s) = 0x0000#16) ∧
        1 ≤ s.rxflen.toNat ∧ rxByte s 0 = seqByte b) } := by
  rw [verifyStatus, isCorrupt_eq, length_rxFrame, seqMatches_rxFrame, frameOk_rxFrame, ← Bool.decide_and]

/-- RXHDR by the bytes of RXBUF (R34): a frame with no byte has no first one, and a short frame no field. -/
theorem frameHeader_rxFrame (s : State) :
    frameHeader (rxFrame s) = {
      rxSeq := if 1 ≤ s.rxflen.toNat then rxByte s 0 else 0x00#8
      rxCsum := if 3 ≤ s.rxflen.toNat then (rxByte s 1).setWidth 16 <<< 8 ||| (rxByte s 2).setWidth 16 else 0x0000#16
      seqV := decide (1 ≤ s.rxflen.toNat), hdrV := decide (3 ≤ s.rxflen.toNat) } := by
  have hseq : (rxFrame s).headD 0x00#8 = if 1 ≤ s.rxflen.toNat then rxByte s 0 else 0x00#8 := by
    split
    · next h => exact rxFrame_headD s h _
    · next h => simp [rxFrame, Nat.eq_zero_of_not_pos h]
  have hcsum : (if 3 ≤ s.rxflen.toNat then (rxFrame s).getD 1 0x00#8 ++ (rxFrame s).getD 2 0x00#8 else 0x0000#16) =
      if 3 ≤ s.rxflen.toNat then (rxByte s 1).setWidth 16 <<< 8 ||| (rxByte s 2).setWidth 16 else 0x0000#16 := by
    split
    · next h => rw [rxFrame_getD s (by omega), rxFrame_getD s (by omega), append_eq_shiftLeft_or]
    · rfl
  rw [frameHeader, length_rxFrame, hseq, hcsum]

/-- Settles O31: the flags and the header of the received frame, by its length, its first bytes and its checksum. -/
theorem verifyChecksAndDecodesTheFrame : Obligations.VerifyChecksAndDecodesTheFrame := by
  refine ⟨rfl, fun s => ⟨verifyFrame s, exec_verify s, ?_⟩⟩
  rw [verifyFrame, verifyStatus_rxFrame, frameHeader_rxFrame]
  simp only [and_assoc]
  rfl

/-- Settles O44: the frame that ENCI leaves is the encoded one, and it has its three header bytes. -/
theorem encodedFramesVerify : Obligations.EncodedFramesVerify := by
  refine ⟨fun b p => csum16_encoded (seqByte b) p, fun s t r b hexec hframe => ?_⟩
  obtain rfl : encodeFrame b s = t := Host.Outcome.next.inj ((exec_enci b s).symm.trans hexec)
  rw [txFrame_encodeFrame] at hframe
  have hpass : csum16 (rxFrame r) = 0x0000#16 := by
    rw [hframe]
    exact csum16_encoded (seqByte b) (txPayload s)
  have hlen : 3 ≤ r.rxflen.toNat := by
    rw [← length_rxFrame, hframe]
    exact Nat.le_add_left 3 _
  refine ⟨verifyFrame r, exec_verify r, ?_, ?_⟩
  · simp [verifyStatus_rxFrame, hpass]
  · simp [verifyStatus_rxFrame, hpass, hlen]

/-! ### The acknowledgment -/

theorem setAck_frame (a : Byte) (v : Bool) (s : State) :
    setAck a v s = { s with ackout := (setAck a v s).ackout } := rfl

theorem readReg_ackout_setAck (a : Byte) (v : Bool) (s : State) :
    readReg (setAck a v s) .ackout = 0#23 ++ BitVec.ofBool v ++ a := rfl

/-- Settles O32: each command sets the ack, and ACKOUT reads as the ack it set. -/
theorem ackencAndAckenciSetTheAck : Obligations.AckencAndAckenciSetTheAck := by
  refine ⟨rfl, rfl, rfl, fun s => ⟨?ackenc, ?ackenci0, ?ackenci1⟩⟩
  case ackenc => exact ⟨_, exec_ackenc s, setAck_frame _ _ s, readReg_ackout_setAck _ _ s⟩
  case ackenci0 => exact ⟨_, exec_ackenci false s, setAck_frame _ _ s, by rw [readReg_ackout_setAck]; decide⟩
  case ackenci1 => exact ⟨_, exec_ackenci true s, setAck_frame _ _ s, by rw [readReg_ackout_setAck]; decide⟩

theorem checkAck_frame (b : Bool) (s : State) :
    checkAck b s = { s with status := { s.status with ackMatch := (checkAck b s).status.ackMatch } } := rfl

/-- ACK_MATCH of R128, the wire byte compared as a number. -/
theorem checkAck_ackMatch_iff (b : Bool) (s : State) :
    (checkAck b s).status.ackMatch = true ↔ s.ackin.len = 1#2 ∧ s.ackin.byte0.toNat = b.toNat := by
  rw [checkAck_status, ackMatches_iff, ← seqByte_toNat, BitVec.toNat_inj]

/-- Settles O33: both commands compare alike, with TX_SEQ or with the immediate bit. -/
theorem ackchkAndAckchkiCompareTheAck : Obligations.AckchkAndAckchkiCompareTheAck :=
  ⟨rfl, rfl, rfl, fun s => ⟨⟨_, exec_ackchk s, checkAck_frame _ s, checkAck_ackMatch_iff _ s⟩,
    fun b => ⟨_, exec_ackchki b s, checkAck_frame b s, checkAck_ackMatch_iff b s⟩⟩⟩

end Sys2Proof.Machine
end

section
/-! The sequence-bit toggle commands (42_sequence.md): what each answers, and SEQ as it reads afterwards. -/

namespace Sys2Proof.Machine

theorem exec_txflip (s : State) : exec .txflip s = .next { s with seq.txSeq := !s.seq.txSeq } := rfl

theorem exec_rxflip (s : State) : exec .rxflip s = .next { s with seq.rxExp := !s.seq.rxExp } := rfl

theorem exec_seqrst (s : State) : exec .seqrst s = .next { s with seq.txSeq := false, seq.rxExp := false } := rfl

/-- TX_SEQ is bit 0 of SEQ (R31). -/
theorem readReg_seq_not_txSeq (s : State) :
    readReg { s with seq.txSeq := !s.seq.txSeq } .seq = readReg s .seq ^^^ 0x00000001#32 := by
  simp only [readReg]
  generalize s.seq.txSeq = tx, s.seq.rxExp = rx, s.seq.retx = re
  revert tx rx re; decide

/-- RX_EXP is bit 1 of SEQ (R32). -/
theorem readReg_seq_not_rxExp (s : State) :
    readReg { s with seq.rxExp := !s.seq.rxExp } .seq = readReg s .seq ^^^ 0x00000002#32 := by
  simp only [readReg]
  generalize s.seq.txSeq = tx, s.seq.rxExp = rx, s.seq.retx = re
  revert tx rx re; decide

/-- RETX is bit 2 of SEQ (R33). -/
theorem readReg_seq_retx (s : State) :
    readReg { s with seq.txSeq := false, seq.rxExp := false } .seq = readReg s .seq &&& 0x00000004#32 := by
  simp only [readReg]
  generalize s.seq.txSeq = tx, s.seq.rxExp = rx, s.seq.retx = re
  revert tx rx re; decide

/-- Two TXFLIPs restore TX_SEQ (R160). -/
theorem exec_txflip_txflip (s : State) : exec .txflip { s with seq.txSeq := !s.seq.txSeq } = .next s := by
  simp [exec_txflip]

/-- Two RXFLIPs restore RX_EXP (R161). -/
theorem exec_rxflip_rxflip (s : State) : exec .rxflip { s with seq.rxExp := !s.seq.rxExp } = .next s := by
  simp [exec_rxflip]

/-- Settles O34: each command sets its bits of SEQ alone, and SEQ reads as the old word with them changed. -/
theorem sequenceCommandsChangeTheirBits : Obligations.SequenceCommandsChangeTheirBits := by
  refine ⟨rfl, rfl, rfl, fun s => ⟨?txflip, ?rxflip, ?seqrst⟩⟩
  case txflip => exact ⟨_, exec_txflip s, rfl, readReg_seq_not_txSeq s, exec_txflip_txflip s⟩
  case rxflip => exact ⟨_, exec_rxflip s, rfl, readReg_seq_not_rxExp s, exec_rxflip_rxflip s⟩
  case seqrst => exact ⟨_, exec_seqrst s, rfl, readReg_seq_retx s⟩

end Sys2Proof.Machine
end

section
/-! TXCOMMIT's two outcomes, and what each leaves of SEQ and of the pending events. -/

namespace Sys2Proof.Machine

@[simp] theorem rttUpdate_seq (s : State) : (rttUpdate s).seq = s.seq := by rw [rttUpdate_frame]

@[simp] theorem rttUpdate_pending (s : State) : (rttUpdate s).pending = s.pending := by rw [rttUpdate_frame]

/-- TXCOMMIT takes one of the two branches of R190. -/
theorem exec_txcommit_cases {s t : State} (h : exec .txcommit s = .next t) :
    t = acceptAck (checkAck s.seq.txSeq s) ∨ t = rejectAck (checkAck s.seq.txSeq s) := by
  change execTxcommit s = .next t at h
  cases hm : ackMatches s.ackin s.seq.txSeq
  · exact .inr (Host.Outcome.next.inj (h.symm.trans (execTxcommit_rejects hm)))
  · exact .inl (Host.Outcome.next.inj (h.symm.trans (execTxcommit_accepts hm)))

@[simp] theorem acceptAck_seq (s : State) : (acceptAck s).seq = ⟨!s.seq.txSeq, s.seq.rxExp, false⟩ := by
  cases h : s.seq.retx
  · rw [acceptAck_first h]
  · rw [acceptAck_retransmitted h]

@[simp] theorem acceptAck_advanced (s : State) : (acceptAck s).status.advanced = true := rfl

@[simp] theorem acceptAck_pending (s : State) : (acceptAck s).pending = s.pending := by
  cases h : s.seq.retx
  · simp [acceptAck_first h]
  · simp [acceptAck_retransmitted h]

@[simp] theorem rejectAck_seq (s : State) : (rejectAck s).seq = ⟨s.seq.txSeq, s.seq.rxExp, true⟩ := rfl

@[simp] theorem rejectAck_advanced (s : State) : (rejectAck s).status.advanced = false := rfl

@[simp] theorem rejectAck_pending (s : State) : (rejectAck s).pending = s.pending := rfl

end Sys2Proof.Machine
end

section
/-! Which transactions keep the sequence bits, up to the step, and that a step only takes events off the pending ones. -/

namespace Sys2Proof.Machine

/-! ### The pending events -/

theorem exec_pending {i : Instr} {s t : State} (h : exec i s = .next t) : t.pending = s.pending := by
  cases i
  case txcommit => obtain rfl | rfl := exec_txcommit_cases h <;> simp
  case rttupd => obtain rfl := Host.Outcome.next.inj h; exact rttUpdate_pending s
  all_goals obtain rfl := Host.Outcome.next.inj h; rfl

theorem perform_pending {d : Word} {s t : State} (h : perform d s = .next t) : t.pending = s.pending := by
  unfold perform at h
  split at h
  · exact exec_pending h
  · obtain rfl := Host.Outcome.next.inj h; rfl

@[simp] theorem writeReg_pending (s : State) (r : Reg) (d : Word) : (writeReg s r d).pending = s.pending := by
  cases r
  case txlen | rxlen | ackin => simp only [writeReg]; split <;> rfl
  all_goals rfl

theorem hostWrite_pending {a : Addr} {d : Word} {s t : State} (h : hostWrite a d s = .next t) :
    t.pending = s.pending := by
  rcases hostWrite_cases a d s with ⟨-, hw⟩ | ⟨-, hw⟩ | ⟨-, hw⟩ | ⟨r, -, -, hw⟩ | ⟨o, -, hw⟩ | ⟨o, -, hw⟩ <;>
    rw [hw] at h
  case inr.inr.inl => exact perform_pending (s := { s with cmdLast := d }) h
  all_goals obtain rfl := Host.Outcome.next.inj h
  case inl | inr.inl => rfl
  · exact writeReg_pending s r d
  · rw [writeLanes_putTx_frame]
  · rw [writeLanes_putRx_frame]

/-- A step serves the first of the pending events and leaves the others (R72). -/
theorem step_pending {s t : State} (h : step s = .next t) : t.pending = s.pending.tail := by
  rcases step_cases s with ⟨hp, hs⟩ | ⟨rest, hp, hs⟩ | ⟨rest, hp, hs⟩ | ⟨e, rest, hp, -, -, hs⟩ |
    ⟨a, rest, hp, -, hs⟩ | ⟨a, d, rest, hp, -, hs⟩ <;> rw [hs] at h
  case inr.inr.inr.inr.inr => rw [hostWrite_pending h, takeEvent_pending, hp, List.tail_cons]
  all_goals obtain rfl := Host.Outcome.next.inj h
  case inr.inr.inr.inr.inl =>
    rcases hostRead_cases a (takeEvent rest s) with ⟨-, hread⟩ | ⟨-, v, hread⟩ <;> rw [hread, hp] <;> rfl
  all_goals rw [hp]; rfl

/-! ### SEQ -/

theorem writeReg_seq {r : Reg} (hr : r ≠ .seq) (s : State) (d : Word) : (writeReg s r d).seq = s.seq := by
  cases r
  case seq => exact absurd rfl hr
  case txlen | rxlen | ackin => simp only [writeReg]; split <;> rfl
  all_goals rfl

/-- The command `i` keeps a bit of SEQ. -/
def KeepsSeqBit (bit : SeqBits → Bool) (i : Instr) : Prop :=
  ∀ s t, exec i s = .next t → bit t.seq = bit s.seq

theorem perform_seqBit {bit : SeqBits → Bool} {d : Word} {s t : State} (h : perform d s = .next t)
    (hi : ∀ i, decode d = .ok i → KeepsSeqBit bit i) : bit t.seq = bit s.seq := by
  unfold perform at h
  split at h
  · next hd => exact hi _ hd _ _ h
  · obtain rfl := Host.Outcome.next.inj h; rfl

theorem hostWrite_seqBit {bit : SeqBits → Bool} {a : Addr} {d : Word} {s t : State}
    (h : hostWrite a d s = .next t) (ha : a ≠ regAddr .seq)
    (hi : a = regAddr .cmd → ∀ i, decode d = .ok i → KeepsSeqBit bit i) : bit t.seq = bit s.seq := by
  rcases hostWrite_cases a d s with ⟨-, hw⟩ | ⟨-, hw⟩ | ⟨hcmd, hw⟩ | ⟨r, -, hr, hw⟩ | ⟨o, -, hw⟩ | ⟨o, -, hw⟩ <;>
    rw [hw] at h
  case inr.inr.inl => exact perform_seqBit (s := { s with cmdLast := d }) h (hi hcmd)
  all_goals obtain rfl := Host.Outcome.next.inj h
  case inl | inr.inl => rfl
  · rw [writeReg_seq]; rintro rfl; exact ha hr
  · rw [writeLanes_putTx_frame]
  · rw [writeLanes_putRx_frame]

/-- A step keeps a bit of SEQ unless it asserts reset, writes SEQ, or issues a command that changes that bit. -/
theorem step_seqBit {bit : SeqBits → Bool} {s t : State} (h : step s = .next t)
    (hreset : ¬ AssertsReset s) (hseq : ∀ d rest, ¬ WritesNext s (regAddr .seq) d rest)
    (hi : ∀ i, Issues s i → KeepsSeqBit bit i) : bit t.seq = bit s.seq := by
  rcases step_cases s with ⟨-, hs⟩ | ⟨rest, hp, -⟩ | ⟨rest, -, hs⟩ | ⟨e, rest, -, -, -, hs⟩ | ⟨a, rest, -, -, hs⟩ |
    ⟨a, d, rest, hp, hr, hs⟩
  case inr.inl => exact absurd ⟨rest, hp⟩ hreset
  all_goals rw [hs] at h
  case inr.inr.inr.inr.inr =>
    refine hostWrite_seqBit (s := takeEvent rest s) h ?_ ?_
    · rintro rfl; exact hseq d rest ⟨hr, hp⟩
    · rintro rfl i hd; exact hi i ⟨d, rest, ⟨hr, hp⟩, hd⟩
  all_goals obtain rfl := Host.Outcome.next.inj h
  case inr.inr.inr.inr.inl =>
    rcases hostRead_cases a (takeEvent rest s) with ⟨-, hread⟩ | ⟨-, v, hread⟩ <;> rw [hread] <;> rfl
  all_goals rfl

end Sys2Proof.Machine
end

section
/-! The commits and the sequence bits (R163): each bit flips exactly where its commit reports success, so the bits at
those commits alternate. -/

namespace Sys2Proof.Machine

/-! ### A sequence bit and its commit -/

/-- A sequence bit with its flip command and its commit: the commit flips the bit exactly where it reports success, and
beside these two only SEQRST writes it. The sender's side is TX_SEQ, TXFLIP and TXCOMMIT with ADVANCED, the receiver's
RX_EXP, RXFLIP and RXCOMMIT with ACCEPT. -/
structure CommitsBit (bit : SeqBits → Bool) (flip commit : Instr) (reports : Status → Bool) : Prop where
  flips : ∀ s t, exec commit s = .next t → bit t.seq = (bit s.seq ^^ reports t.status)
  keeps : ∀ i, i ≠ flip → i ≠ .seqrst → i ≠ commit → KeepsSeqBit bit i

theorem commitsBit_txSeq : CommitsBit SeqBits.txSeq .txflip .txcommit Status.advanced where
  flips s t h := by obtain rfl | rfl := exec_txcommit_cases h <;> simp
  keeps i hflip hrst hcommit s t h := by
    cases i
    case txflip => exact absurd rfl hflip
    case seqrst => exact absurd rfl hrst
    case txcommit => exact absurd rfl hcommit
    case rttupd => obtain rfl := Host.Outcome.next.inj h; exact congrArg SeqBits.txSeq (rttUpdate_seq s)
    all_goals obtain rfl := Host.Outcome.next.inj h; rfl

theorem commitsBit_rxExp : CommitsBit SeqBits.rxExp .rxflip .rxcommit Status.accept where
  flips s t h := by
    obtain rfl := Host.Outcome.next.inj h
    change (if (verifyFrame s).status.accept then !s.seq.rxExp else s.seq.rxExp) =
      (s.seq.rxExp ^^ (verifyFrame s).status.accept)
    cases (verifyFrame s).status.accept <;> simp
  keeps i hflip hrst hcommit s t h := by
    cases i
    case rxflip => exact absurd rfl hflip
    case seqrst => exact absurd rfl hrst
    case rxcommit => exact absurd rfl hcommit
    case rttupd => obtain rfl := Host.Outcome.next.inj h; exact congrArg SeqBits.rxExp (rttUpdate_seq s)
    case txcommit => obtain rfl | rfl := exec_txcommit_cases h <;> simp
    all_goals obtain rfl := Host.Outcome.next.inj h; rfl

/-- A frame that is accepted has the wire byte of the expected bit for its sequence byte (R125). -/
theorem exec_rxcommit_rxSeq {s t : State} (h : exec .rxcommit s = .next t) (ha : t.status.accept = true) :
    t.rxhdr.rxSeq = seqByte s.seq.rxExp := by
  obtain rfl := Host.Outcome.next.inj h
  have hmatch : seqMatches (rxFrame s) s.seq.rxExp = true := ((Bool.and_eq_true ..).mp ha).2
  have hhead : (rxFrame s).head? = some (seqByte s.seq.rxExp) := beq_iff_eq.mp hmatch
  change (rxFrame s).headD 0x00#8 = seqByte s.seq.rxExp
  rw [List.headD_eq_head?_getD, hhead, Option.getD_some]

/-! ### Steps -/

theorem decodeTableWord_toNat {w : Word} {i : Instr} : decodeTableWord 32 w.toNat = some i ↔ decode w = .ok i := by
  have hmod : w.toNat % 2 ^ min 32 32 = w.toNat := Nat.mod_eq_of_lt w.isLt
  rw [decodeTableWord, hmod, BitVec.ofNat_toNat, BitVec.setWidth_eq]
  cases decode w <;> simp

theorem issued_eq_some_iff {s : State} {i : Instr} : issued s = some i ↔ Issues s i := by
  constructor
  · intro h
    unfold issued at h
    split at h
    · next a w rest hr hp =>
      split at h
      · next ha => exact ⟨w, rest, ⟨hr, ha ▸ hp⟩, decodeTableWord_toNat.mp h⟩
      · cases h
    · cases h
  · rintro ⟨w, rest, ⟨hr, hp⟩, hd⟩
    simp only [issued, hr, hp, if_true]
    exact decodeTableWord_toNat.mpr hd

/-- The step that issues a command runs it, in a state with the same SEQ. -/
theorem Issues.exec_of_step {s t : State} {i : Instr} (hi : Issues s i) (h : step s = .next t) :
    ∃ u, u.seq = s.seq ∧ exec i u = .next t := by
  obtain ⟨w, rest, hw, hd⟩ := hi
  exact ⟨{ s with pending := rest, rdata := none, cmdLast := w }, rfl,
    (stepRunsDecodedCommand s w rest i hw hd).symm.trans h⟩

/-- What R163 admits of the host, by the flip command of the side: no write of SEQ, neither that command nor SEQRST, and
no reset. -/
def OnlyCommitFlips (flip : Instr) (e : HostEvent) : Prop :=
  match e with
  | .wr a w => a ≠ 0x0018#16 ∧ (a = 0x0000#16 → decode w ≠ .ok flip ∧ decode w ≠ .ok .seqrst)
  | .rd _ => True
  | .resetInput asserted => asserted = false

theorem onlyTxcommitFlips_iff (e : HostEvent) : OnlyTxcommitFlips e ↔ OnlyCommitFlips .txflip e := Iff.rfl

theorem onlyRxcommitFlips_iff (e : HostEvent) : OnlyRxcommitFlips e ↔ OnlyCommitFlips .rxflip e := Iff.rfl

/-- Every pending event is one that R163 admits. -/
def HostOnlyCommits (flip : Instr) (s : State) : Prop := ∀ e ∈ s.pending, OnlyCommitFlips flip e

theorem HostOnlyCommits.head {flip : Instr} {s : State} (hhost : HostOnlyCommits flip s) {e : HostEvent}
    {rest : List HostEvent} (hp : s.pending = e :: rest) : OnlyCommitFlips flip e :=
  hhost e (by rw [hp]; exact List.mem_cons_self)

theorem HostOnlyCommits.of_step {flip : Instr} {s t : State} (hhost : HostOnlyCommits flip s) (h : step s = .next t) :
    HostOnlyCommits flip t := by
  intro e he
  rw [step_pending h] at he
  exact hhost e (List.mem_of_mem_tail he)

theorem HostOnlyCommits.not_assertsReset {flip : Instr} {s : State} (hhost : HostOnlyCommits flip s) :
    ¬ AssertsReset s := by
  rintro ⟨rest, hp⟩
  have hlevel : true = false := hhost.head hp
  cases hlevel

theorem HostOnlyCommits.not_writesSeq {flip : Instr} {s : State} (hhost : HostOnlyCommits flip s) (d : Word)
    (rest : List HostEvent) : ¬ WritesNext s (regAddr .seq) d rest := by
  rintro ⟨-, hp⟩
  obtain ⟨hseq, -⟩ : OnlyCommitFlips flip (.wr (regAddr .seq) d) := hhost.head hp
  exact hseq rfl

theorem HostOnlyCommits.ne_of_issues {flip i : Instr} {s : State} (hhost : HostOnlyCommits flip s)
    (hi : Issues s i) : i ≠ flip ∧ i ≠ .seqrst := by
  obtain ⟨w, rest, ⟨-, hp⟩, hd⟩ := hi
  obtain ⟨-, hcmd⟩ : OnlyCommitFlips flip (.wr 0x0000#16 w) := hhost.head hp
  obtain ⟨hflip, hrst⟩ := hcmd rfl
  exact ⟨fun h => hflip (h ▸ hd), fun h => hrst (h ▸ hd)⟩

/-- Where the host only commits, a step flips the bit where it is a commit that reports success, and keeps it otherwise. -/
theorem CommitsBit.step_bit {bit : SeqBits → Bool} {flip commit : Instr} {reports : Status → Bool}
    (hc : CommitsBit bit flip commit reports) {s t : State} (hhost : HostOnlyCommits flip s) (h : step s = .next t) :
    bit t.seq = if issued s = some commit ∧ reports t.status = true then !bit s.seq else bit s.seq := by
  by_cases hi : Issues s commit
  · obtain ⟨u, hseq, hexec⟩ := hi.exec_of_step h
    rw [hc.flips u t hexec, hseq]
    cases reports t.status <;> simp [issued_eq_some_iff.mpr hi]
  · rw [if_neg fun ⟨hissued, _⟩ => hi (issued_eq_some_iff.mp hissued)]
    refine step_seqBit h hhost.not_assertsReset hhost.not_writesSeq fun i hissues => ?_
    obtain ⟨hflip, hrst⟩ := hhost.ne_of_issues hissues
    exact hc.keeps i hflip hrst fun heq => hi (heq ▸ hissues)

/-! ### Runs -/

/-- The list holds the values of `f` at `b`, `!b`, `b`, `!b`, and so on. -/
def Alternates {α : Type} (f : Bool → α) : Bool → List α → Prop
  | _, [] => True
  | b, x :: l => x = f b ∧ Alternates f (!b) l

theorem Alternates.eq_of_getElem? {α : Type} {f : Bool → α} {b : Bool} {l : List α} (h : Alternates f b l) {k : Nat}
    {x : α} (hk : l[k]? = some x) : x = f (b ^^ decide (k % 2 = 1)) := by
  induction l generalizing b k with
  | nil => simp at hk
  | cons y l ih =>
    obtain ⟨hy, hl⟩ := h
    cases k with
    | zero =>
      obtain rfl : y = x := by simpa using hk
      simpa using hy
    | succ k =>
      have hparity : decide ((k + 1) % 2 = 1) = !decide (k % 2 = 1) := by
        rw [← decide_not, decide_eq_decide]; omega
      rw [ih hl (by simpa using hk), hparity, Bool.not_xor, Bool.xor_not]

/-- What the successful commits of a run record of their bit alternates, from the bit at its start. -/
theorem CommitsBit.alternates {bit : SeqBits → Bool} {flip commit : Instr} {reports : Status → Bool}
    (hc : CommitsBit bit flip commit reports) {α : Type} {f : Bool → α} {record : Nat → State → List α}
    (hzero : ∀ s, record 0 s = [])
    (hsucc : ∀ n s t, step s = .next t → record (n + 1) s =
      if issued s = some commit ∧ reports t.status = true then f (bit s.seq) :: record n t else record n t)
    (n : Nat) {s : State} (hhost : HostOnlyCommits flip s) : Alternates f (bit s.seq) (record n s) := by
  induction n generalizing s with
  | zero => rw [hzero]; trivial
  | succ n ih =>
    obtain ⟨t, ht⟩ := step_next s
    have hbit := hc.step_bit hhost ht
    have hrest := ih (hhost.of_step ht)
    rw [hsucc n s t ht]
    split
    · next hcommit =>
      rw [hbit, if_pos hcommit] at hrest
      exact ⟨rfl, hrest⟩
    · next hcommit => rwa [hbit, if_neg hcommit] at hrest

theorem advancedBits_succ (n : Nat) (s t : State) (h : step s = .next t) :
    advancedBits (n + 1) s =
      if issued s = some .txcommit ∧ t.status.advanced = true then s.seq.txSeq :: advancedBits n t
      else advancedBits n t := by
  simp only [advancedBits, h]

/-- The byte recorded of an accepted frame is that of RX_EXP before the flip. -/
theorem acceptedBytes_succ (n : Nat) (s t : State) (h : step s = .next t) :
    acceptedBytes (n + 1) s =
      if issued s = some .rxcommit ∧ t.status.accept = true then seqByte s.seq.rxExp :: acceptedBytes n t
      else acceptedBytes n t := by
  simp only [acceptedBytes, h]
  refine if_ctx_congr Iff.rfl (fun hcommit => ?_) fun _ => rfl
  obtain ⟨hissued, haccept⟩ := hcommit
  obtain ⟨u, hseq, hexec⟩ := (issued_eq_some_iff.mp hissued).exec_of_step h
  rw [exec_rxcommit_rxSeq hexec haccept, hseq]

/-- Settles O55: both sides are a bit and its commit, and their records alternate from the bit 0. -/
theorem acceptedBitsAlternate : Obligations.AcceptedBitsAlternate := by
  refine ⟨fun n s hbit hhost k b hk => ?_, fun n s hbit hhost k b hk => ?_⟩
  · have halt := commitsBit_txSeq.alternates (f := id) (fun _ => rfl) advancedBits_succ n
      fun e he => (onlyTxcommitFlips_iff e).mp (hhost e he)
    rw [halt.eq_of_getElem? hk, hbit, Bool.false_xor, id]
  · have halt := commitsBit_rxExp.alternates (fun _ => rfl) acceptedBytes_succ n
      fun e he => (onlyRxcommitFlips_iff e).mp (hhost e he)
    rw [halt.eq_of_getElem? hk, hbit, Bool.false_xor]

end Sys2Proof.Machine
end

section
/-! The timeout and RTT commands (43_rtt.md): what each answers, the constants and the worked example of the update, and
the range of its results. -/

namespace Sys2Proof.Machine

/-! ### RTTRST and RETXMARK -/

theorem exec_rttrst (s : State) : exec .rttrst s =
    .next { s with est := plusZero, dev := plusZero, tmo := s.initTmo, seq.retx := false } := rfl

theorem exec_retxmark (s : State) : exec .retxmark s = .next { s with seq.retx := true } := rfl

/-- RETX is bit 2 of SEQ (R33): clearing it leaves TX_SEQ and RX_EXP. -/
theorem readReg_seq_clear_retx (s : State) :
    readReg { s with seq.retx := false } .seq = readReg s .seq &&& 0x00000003#32 := by
  simp only [readReg]
  generalize s.seq.txSeq = tx, s.seq.rxExp = rx, s.seq.retx = re
  revert tx rx re; decide

/-- RETX is bit 2 of SEQ (R33). -/
theorem readReg_seq_set_retx (s : State) :
    readReg { s with seq.retx := true } .seq = readReg s .seq ||| 0x00000004#32 := by
  simp only [readReg]
  generalize s.seq.txSeq = tx, s.seq.rxExp = rx, s.seq.retx = re
  revert tx rx re; decide

/-- Settles O35: of SEQ, RTTRST clears RETX alone. -/
theorem rttrstStartsATransfer : Obligations.RttrstStartsATransfer :=
  ⟨rfl, fun s => ⟨_, exec_rttrst s, rfl, readReg_seq_clear_retx s⟩⟩

/-- Settles O36: in the state RETXMARK answers, RETX is already set. -/
theorem retxmarkSetsRetx : Obligations.RetxmarkSetsRetx :=
  ⟨rfl, fun s => ⟨_, exec_retxmark s, rfl, readReg_seq_set_retx s, exec_retxmark { s with seq.retx := true }⟩⟩

/-! ### RTTUPD -/

theorem exec_rttupd (s : State) : exec .rttupd s = .next (rttUpdate s) := rfl

theorem sampleValid_iff_validSampleBits (v : Dword) : sampleValid v = true ↔ ValidSampleBits v := sampleValid_iff v

/-- RTTUPD of a valid sample performs the update of R170. -/
theorem exec_rttupd_of_valid {s : State} (h : ValidSampleBits s.sample) :
    exec .rttupd s = .next { s with
      est := nextEst s.est s.sample
      dev := nextDev s.dev s.sample (nextEst s.est s.sample)
      tmo := nextTmo (nextEst s.est s.sample) (nextDev s.dev s.sample (nextEst s.est s.sample))
      status.rttUpdated := true } := by
  rw [exec_rttupd, rttUpdate_of_valid ((sampleValid_iff_validSampleBits _).mpr h)]

/-- RTTUPD of an invalid sample raises ERR_RTT and keeps EST, DEV and TMO (R172). -/
theorem exec_rttupd_of_invalid {s : State} (h : ¬ ValidSampleBits s.sample) :
    exec .rttupd s = .next { s with status.errRtt := true, status.rttUpdated := false } := by
  rw [← sampleValid_iff_validSampleBits, Bool.not_eq_true] at h
  rw [exec_rttupd, rttUpdate_of_invalid h]

/-- Settles O37: the two cases of R170, its operations under the names the model gives them. -/
theorem rttupdFeedsOneSample : Obligations.RttupdFeedsOneSample :=
  ⟨rfl, fun _ => ⟨exec_rttupd_of_valid, exec_rttupd_of_invalid⟩⟩

/-! ### The range of the results -/

theorem finitePositive_c4 : FinitePositive c4 := by unfold FinitePositive; decide

theorem nonNegative_nextTmo {e d : Dword} (he : NonNegative e) (hd : NonNegative d) : NonNegative (nextTmo e d) :=
  nonNegative_fadd he (nonNegative_fmul finitePositive_c4 hd).atLeastZero

/-- Settles O50: E, D and T one after another, each from those before it. -/
theorem rttResultsStayNonNegative : Obligations.RttResultsStayNonNegative := by
  intro s hest hdev hvalid
  obtain ⟨hfinite, hsample⟩ := sampleValid_imp ((sampleValid_iff_validSampleBits _).mpr hvalid)
  have he := nonNegative_nextEst hest hsample
  have hd := nonNegative_nextDev hdev hfinite he
  exact ⟨_, exec_rttupd_of_valid hvalid, he, hd, nonNegative_nextTmo he hd⟩

/-! ### The constants and the worked example -/

/-- A positive normal value: its significand over the power of two that the exponent field `1075 - k` stands for. -/
theorem b64Value_of_normal {v : Dword} (hneg : b64Neg v = false) (hnormal : b64Exp v ≠ 0) {k : Nat}
    (hexp : b64Exp v + k = 1075) : b64Value v = (2 ^ 52 + b64Frac v) / 2 ^ k := by
  have hscale : (2 : ℚ) ^ 1074 = 2 ^ (b64Exp v - 1) * 2 ^ k := by rw [← pow_add]; congr 1; omega
  rw [b64Value, hneg, b64Mag, if_neg hnormal, hscale, Nat.cast_mul, Nat.cast_pow, Nat.cast_add, Nat.cast_pow,
    Nat.cast_two, if_neg Bool.false_ne_true, one_mul, mul_comm, mul_div_mul_left _ _ (by positivity)]

/-- Settles O49: five normal values, and +0.0, whose magnitude is 0. -/
theorem rttConstantsHaveTheirValues : Obligations.RttConstantsHaveTheirValues := by
  refine ⟨?c0875, ?c0125, ?c075, ?c025, ?c4, ?plusZero⟩
  case c0875 => rw [b64Value_of_normal (k := 53) (by decide) (by decide) (by decide)]; norm_num [b64Frac]
  case c0125 => rw [b64Value_of_normal (k := 55) (by decide) (by decide) (by decide)]; norm_num [b64Frac]
  case c075 => rw [b64Value_of_normal (k := 53) (by decide) (by decide) (by decide)]; norm_num [b64Frac]
  case c025 => rw [b64Value_of_normal (k := 54) (by decide) (by decide) (by decide)]; norm_num [b64Frac]
  case c4 => rw [b64Value_of_normal (k := 50) (by decide) (by decide) (by decide)]; norm_num [b64Frac]
  case plusZero => rw [b64Value, (b64Mag_eq_zero_iff _).mpr (by decide)]; simp

/-- From EST = +0.0 the sample 1.0 gives 0.125. -/
theorem nextEst_example : nextEst 0x0#64 0x3FF0000000000000#64 = 0x3FC0000000000000#64 := by decide +kernel

/-- From DEV = +0.0 the sample 1.0 gives 0.25 * |1.0 - 0.125| = 0.21875. -/
theorem nextDev_example :
    nextDev 0x0#64 0x3FF0000000000000#64 0x3FC0000000000000#64 = 0x3FCC000000000000#64 := by decide +kernel

/-- 0.125 + 4 * 0.21875 = 1.0. -/
theorem nextTmo_example : nextTmo 0x3FC0000000000000#64 0x3FCC000000000000#64 = 0x3FF0000000000000#64 := by
  decide +kernel

theorem validSampleBits_one : ValidSampleBits 0x3FF0000000000000#64 := by unfold ValidSampleBits; decide

/-- Settles O38: the three results of R174, each from those before it. -/
theorem rttupdWorkedExample : Obligations.RttupdWorkedExample := by
  intro s hest hdev hsample
  have hvalid : ValidSampleBits s.sample := hsample ▸ validSampleBits_one
  refine ⟨_, exec_rttupd_of_valid hvalid, ?_, ?_, ?_, rfl, rfl⟩ <;>
    simp only [hest, hdev, hsample, nextEst_example, nextDev_example, nextTmo_example]

end Sys2Proof.Machine
end

section
/-! The sender's commit (44_commit.md R190, R194): TXCOMMIT by its comparison and by RETX. -/

namespace Sys2Proof.Machine

/-! ### The acknowledgment compared -/

theorem checkAck_of_ackMatches {s : State} {b m : Bool} (h : ackMatches s.ackin b = m) :
    checkAck b s = { s with status.ackMatch := m } := by rw [checkAck, h]

/-- RttUpdate neither reads nor writes ACK_MATCH. -/
theorem rttUpdate_setAckMatch (s : State) (m : Bool) :
    rttUpdate { s with status.ackMatch := m } = { rttUpdate s with status.ackMatch := m } := by
  cases h : sampleValid s.sample
  · rw [rttUpdate_of_invalid h, rttUpdate_of_invalid (s := { s with status.ackMatch := m }) h]
  · rw [rttUpdate_of_valid h, rttUpdate_of_valid (s := { s with status.ackMatch := m }) h]

/-! ### The three answers of TXCOMMIT -/

theorem exec_txcommit_of_match {s : State} (hm : s.ackin.len = 1#2 ∧ s.ackin.byte0 = seqByte s.seq.txSeq) :
    exec .txcommit s = .next (acceptAck { s with status.ackMatch := true }) := by
  have hmatch := (ackMatches_iff ..).mpr hm
  have hexec : exec .txcommit s = .next (acceptAck (checkAck s.seq.txSeq s)) := execTxcommit_accepts hmatch
  rw [hexec, checkAck_of_ackMatches hmatch]

/-- A matching ack of a chunk sent once: the answer of RTTUPD, and the ack accepted. -/
theorem exec_txcommit_of_match_first {s : State} (hm : s.ackin.len = 1#2 ∧ s.ackin.byte0 = seqByte s.seq.txSeq)
    (hr : s.seq.retx = false) :
    exec .txcommit s = .next { rttUpdate s with
      seq := ⟨!s.seq.txSeq, s.seq.rxExp, false⟩
      status.ackMatch := true, status.advanced := true } := by
  rw [exec_txcommit_of_match hm, acceptAck_first (s := { s with status.ackMatch := true }) hr, rttUpdate_setAckMatch]

/-- A matching ack of a retransmitted chunk: the ack accepted, and no sample fed (Karn's rule). -/
theorem exec_txcommit_of_match_retransmitted {s : State}
    (hm : s.ackin.len = 1#2 ∧ s.ackin.byte0 = seqByte s.seq.txSeq) (hr : s.seq.retx = true) :
    exec .txcommit s = .next { s with
      seq := ⟨!s.seq.txSeq, s.seq.rxExp, false⟩
      status.ackMatch := true, status.advanced := true, status.rttUpdated := false } := by
  rw [exec_txcommit_of_match hm, acceptAck_retransmitted (s := { s with status.ackMatch := true }) hr]

/-- Any other response: the chunk marked as retransmitted. -/
theorem exec_txcommit_of_not_match {s : State} (hm : ¬(s.ackin.len = 1#2 ∧ s.ackin.byte0 = seqByte s.seq.txSeq)) :
    exec .txcommit s = .next { s with
      seq.retx := true
      status.ackMatch := false, status.advanced := false, status.rttUpdated := false } := by
  have hmatch : ackMatches s.ackin s.seq.txSeq = false := by rwa [← ackMatches_iff, Bool.not_eq_true] at hm
  have hexec : exec .txcommit s = .next (rejectAck (checkAck s.seq.txSeq s)) := execTxcommit_rejects hmatch
  rw [hexec, checkAck_of_ackMatches hmatch, rejectAck]

/-- A matching ack advances the sender, whether or not its sample is fed. -/
theorem exec_txcommit_advances {s : State} (hm : s.ackin.len = 1#2 ∧ s.ackin.byte0 = seqByte s.seq.txSeq) :
    ∃ t, exec .txcommit s = .next t ∧ t.status.advanced = true ∧ t.seq.txSeq = !s.seq.txSeq := by
  cases hr : s.seq.retx
  · exact ⟨_, exec_txcommit_of_match_first hm hr, rfl, rfl⟩
  · exact ⟨_, exec_txcommit_of_match_retransmitted hm hr, rfl, rfl⟩

/-- Settles O39: the three answers of TXCOMMIT; where RETX was 0, clearing it changes nothing. -/
theorem txcommitIsTheResponseStep : Obligations.TxcommitIsTheResponseStep := by
  refine ⟨rfl, fun s => ⟨fun hm hr => ⟨rttUpdate s, exec_rttupd s, ?first⟩, fun hm hr => ?retransmitted,
    fun hm => exec_txcommit_of_not_match hm⟩⟩
  case first => rw [exec_txcommit_of_match_first hm hr, ← hr]
  case retransmitted => exact exec_txcommit_of_match_retransmitted hm hr

/-- Settles O54: of what the frame is made of, the rejecting answer changes nothing. -/
theorem rejectedAckKeepsTheFrame : Obligations.RejectedAckKeepsTheFrame :=
  fun _ hm => ⟨_, exec_txcommit_of_not_match hm, rfl, fun _ => rfl, rfl, rfl⟩

end Sys2Proof.Machine
end

section
/-! The receiver's commit (44_commit.md R191 to R193): the state RXCOMMIT answers, and its ack by the received frame. -/

namespace Sys2Proof.Machine

/-! ### The state RXCOMMIT answers -/

/-- The state RXCOMMIT answers: VERIFY's, with the ack set and RX_EXP flipped on ACCEPT. -/
def commitFrame (s : State) : State :=
  { verifyFrame s with
    ackout := receiverAck (verifyFrame s)
    seq.rxExp := if (verifyFrame s).status.accept then !s.seq.rxExp else s.seq.rxExp }

theorem exec_rxcommit (s : State) : exec .rxcommit s = .next (commitFrame s) := rfl

@[simp] theorem commitFrame_status (s : State) : (commitFrame s).status = (verifyFrame s).status := rfl

@[simp] theorem commitFrame_ackout (s : State) : (commitFrame s).ackout = receiverAck (verifyFrame s) := rfl

@[simp] theorem commitFrame_rxflen (s : State) : (commitFrame s).rxflen = s.rxflen := rfl

@[simp] theorem rxByte_commitFrame (s : State) (o : Nat) : rxByte (commitFrame s) o = rxByte s o := rfl

@[simp] theorem rxFrame_commitFrame (s : State) : rxFrame (commitFrame s) = rxFrame s := rfl

theorem commitFrame_rxExp_of_accept {s : State} (h : (verifyFrame s).status.accept = true) :
    (commitFrame s).seq.rxExp = !s.seq.rxExp := if_pos h

theorem commitFrame_rxExp_of_not_accept {s : State} (h : (verifyFrame s).status.accept = false) :
    (commitFrame s).seq.rxExp = s.seq.rxExp := if_neg (Bool.eq_false_iff.mp h)

/-! ### The flags of the received frame -/

/-- The frame passes the length and the integrity check (R25). -/
def FramePasses (s : State) : Prop := 3 ≤ s.rxflen.toNat ∧ csum16 (rxFrame s) = 0x0000#16

theorem verifyFrame_frameOk_iff (s : State) : (verifyFrame s).status.frameOk = true ↔ FramePasses s := by
  rw [verifyFrame_status, verifyStatus_rxFrame, decide_eq_true_iff, FramePasses]

theorem verifyFrame_frameOk_of_not_passes {s : State} (h : ¬FramePasses s) :
    (verifyFrame s).status.frameOk = false := by
  rwa [← verifyFrame_frameOk_iff, Bool.not_eq_true] at h

theorem verifyFrame_seqMatch_iff (s : State) :
    (verifyFrame s).status.seqMatch = true ↔ 1 ≤ s.rxflen.toNat ∧ rxByte s 0 = seqByte s.seq.rxExp := by
  rw [verifyFrame_status, verifyStatus_rxFrame, decide_eq_true_iff]

/-- ACCEPT is FRAME_OK and SEQ_MATCH (R25). -/
theorem verifyFrame_accept (s : State) :
    (verifyFrame s).status.accept = ((verifyFrame s).status.frameOk && (verifyFrame s).status.seqMatch) := rfl

theorem verifyFrame_accept_of_not_passes {s : State} (h : ¬FramePasses s) :
    (verifyFrame s).status.accept = false := by
  rw [verifyFrame_accept, verifyFrame_frameOk_of_not_passes h, Bool.false_and]

/-! ### The ack -/

/-- The wire byte of the bit last accepted, which is the other one than RX_EXP. -/
theorem seqByte_not (b : Bool) : seqByte (!b) = if b then 0x00#8 else 0x01#8 := by cases b <;> rfl

theorem verifyFrame_seqV (s : State) : (verifyFrame s).rxhdr.seqV = decide (1 ≤ s.rxflen.toNat) := by
  rw [verifyFrame_rxhdr, frameHeader_rxFrame]

theorem verifyFrame_rxSeq {s : State} (h : 1 ≤ s.rxflen.toNat) : (verifyFrame s).rxhdr.rxSeq = rxByte s 0 := by
  rw [verifyFrame_rxhdr, frameHeader_rxFrame]
  exact if_pos h

/-- An empty frame is not acked. -/
theorem receiverAck_of_empty {s : State} (h : s.rxflen.toNat = 0) :
    receiverAck (verifyFrame s) = ⟨0x00#8, false⟩ := by
  have hnone : (verifyFrame s).rxhdr.seqV = false := by rw [verifyFrame_seqV, h]; rfl
  rw [receiverAck, if_pos hnone]

/-- Under LAST_ACCEPTED a frame that fails FRAME_OK is acked with the bit last accepted. -/
theorem receiverAck_of_lastAccepted {s : State} (h : 1 ≤ s.rxflen.toNat)
    (hfail : (verifyFrame s).status.frameOk = false) (hcfg : s.cfg.rxCorruptAck = .lastAccepted) :
    receiverAck (verifyFrame s) = ⟨seqByte (!s.seq.rxExp), true⟩ := by
  rw [receiverAck, verifyFrame_seqV, decide_eq_true h, if_neg Bool.false_ne_true.symm, if_pos ⟨hfail, hcfg⟩,
    verifyFrame_seq]

/-- A frame that passes FRAME_OK, and under RECEIVED every frame that is not empty, is acked with its own byte. -/
theorem receiverAck_of_received {s : State} (h : 1 ≤ s.rxflen.toNat)
    (hown : (verifyFrame s).status.frameOk = true ∨ s.cfg.rxCorruptAck = .received) :
    receiverAck (verifyFrame s) = ⟨rxByte s 0, true⟩ := by
  have hnot : ¬((verifyFrame s).status.frameOk = false ∧ (verifyFrame s).cfg.rxCorruptAck = .lastAccepted) := by
    rintro ⟨hfail, hlast⟩
    rcases hown with hok | hcfg
    · exact Bool.noConfusion (hfail.symm.trans hok)
    · exact Config.CorruptAck.noConfusion (hcfg.symm.trans hlast)
  rw [receiverAck, verifyFrame_seqV, decide_eq_true h, if_neg Bool.false_ne_true.symm, if_neg hnot, verifyFrame_rxSeq h]

/-- Settles O40: the state is VERIFY's but for SEQ and ACKOUT, and the ack has its three cases. -/
theorem rxcommitIsTheFrameStep : Obligations.RxcommitIsTheFrameStep := by
  refine ⟨rfl, fun s => ⟨verifyFrame s, commitFrame s, exec_verify s, exec_rxcommit s, rfl, receiverAck_of_empty,
    fun hne hfail hcfg => ?failed, fun hne hown => ?own⟩⟩
  case failed =>
    rw [commitFrame_ackout, receiverAck_of_lastAccepted (Nat.pos_of_ne_zero hne) hfail hcfg, seqByte_not]
  case own => exact receiverAck_of_received (Nat.pos_of_ne_zero hne) hown

/-! ### Frames delivered twice, and frames that fail -/

/-- Settles O51: the flip of RX_EXP at the first RXCOMMIT makes the same sequence byte the wrong one at the second. -/
theorem duplicateFrameIsDeliveredOnce : Obligations.DuplicateFrameIsDeliveredOnce := by
  intro s hlen hsum hbyte
  have hpos : 1 ≤ s.rxflen.toNat := by omega
  have hok : (verifyFrame s).status.frameOk = true := (verifyFrame_frameOk_iff s).mpr ⟨hlen, hsum⟩
  have hok' : (verifyFrame (commitFrame s)).status.frameOk = true := hok
  have haccept : (verifyFrame s).status.accept = true := by
    rw [verifyFrame_accept, hok, (verifyFrame_seqMatch_iff s).mpr ⟨hpos, hbyte⟩, Bool.and_self]
  have hflip := commitFrame_rxExp_of_accept haccept
  have hmatch' : (verifyFrame (commitFrame s)).status.seqMatch = false := by
    rw [← Bool.not_eq_true, verifyFrame_seqMatch_iff, rxByte_commitFrame, hbyte, hflip, seqByte_injective]
    simp
  have haccept' : (verifyFrame (commitFrame s)).status.accept = false := by
    rw [verifyFrame_accept, hmatch', Bool.and_false]
  exact ⟨commitFrame s, commitFrame (commitFrame s), exec_rxcommit s, exec_rxcommit _, haccept, hflip,
    receiverAck_of_received hpos (.inl hok), hmatch', haccept', commitFrame_rxExp_of_not_accept haccept',
    receiverAck_of_received (s := commitFrame s) hpos (.inl hok')⟩

/-- Settles O52: the ack is the byte of the bit last accepted, which is not the sender's. -/
theorem lastAcceptedAckIsRejected : Obligations.LastAcceptedAckIsRejected := by
  intro r p hcfg hlen hfail hbit
  have hack := receiverAck_of_lastAccepted hlen (verifyFrame_frameOk_of_not_passes hfail) hcfg
  refine ⟨commitFrame r, exec_rxcommit r, congrArg AckOut.valid hack,
    commitFrame_rxExp_of_not_accept (verifyFrame_accept_of_not_passes hfail), fun _ hbyte => ?_⟩
  have hother : ¬(p.ackin.len = 1#2 ∧ p.ackin.byte0 = seqByte p.seq.txSeq) := by
    rintro ⟨-, heq⟩
    rw [hbyte, commitFrame_ackout, hack, hbit, seqByte_injective] at heq
    exact Bool.not_ne_self _ heq
  exact ⟨_, exec_txcommit_of_not_match hother, rfl, rfl, rfl⟩

/-- The frame 00 BE FF 41 with its payload bit 0 flipped does not pass. -/
theorem csum16_example_ne_zero : csum16 [0x00#8, 0xBE#8, 0xFF#8, 0x40#8] ≠ 0x0000#16 := by decide

/-- Settles O53: RECEIVED acks the corrupt frame with its intact sequence byte, the one the sender waits for. -/
theorem receivedAckLosesTheChunk : Obligations.ReceivedAckLosesTheChunk := by
  intro r p hcfg hframe _ hbit
  have hcorrupt : csum16 (rxFrame r) ≠ 0x0000#16 := hframe ▸ csum16_example_ne_zero
  have hlen : 1 ≤ r.rxflen.toNat := by
    rw [← length_rxFrame, hframe]
    exact Nat.le_add_left 1 _
  have hbyte : rxByte r 0 = 0x00#8 := by rw [← rxFrame_headD r hlen 0x00#8, hframe, List.headD_cons]
  have hack : (commitFrame r).ackout = ⟨0x00#8, true⟩ := by
    rw [commitFrame_ackout, receiverAck_of_received hlen (.inr hcfg), hbyte]
  refine ⟨commitFrame r, exec_rxcommit r, ?_, verifyFrame_accept_of_not_passes fun ⟨_, hsum⟩ => hcorrupt hsum, hack,
    fun hone heq => ?_⟩
  · rw [commitFrame_status, verifyFrame_status, verifyStatus_rxFrame, decide_eq_true hcorrupt]
  · have hmatch : p.ackin.byte0 = seqByte p.seq.txSeq := by rw [heq, hack, hbit]; rfl
    obtain ⟨q, hexec, hadvanced, hflip⟩ := exec_txcommit_advances ⟨hone, hmatch⟩
    exact ⟨q, hexec, hadvanced, by rw [hflip, hbit, Bool.not_false]⟩

end Sys2Proof.Machine
end

section
/-! Idle and safe runs (R200, R207, R212): a step without an event keeps the state, and no step from a legal state leaves
the legal states. -/

namespace Sys2Proof.Machine

theorem step_of_idle {s : State} (h : s.pending = []) : step s = .next s := by rw [step, serveNext, h]

/-- Settles O9, by induction on the number of steps: each is idle. -/
theorem idleKeepsAllState : Obligations.IdleKeepsAllState := by
  intro n s hidle
  induction n with
  | zero => rfl
  | succ n ih => rw [run_succ_of_step (step_of_idle hidle), ih]

/-- Settles O8, by induction on the number of steps: each answers a next state, which is legal by O6. -/
theorem everyRunIsSafe : Obligations.EveryRunIsSafe := by
  intro n
  induction n with
  | zero => exact fun _ hlegal => hlegal
  | succ n ih =>
    intro s hlegal
    obtain ⟨t, ht⟩ := step_next s
    exact ⟨hlegal, t, ht, ih t (stepKeepsLegal s t hlegal ht)⟩

end Sys2Proof.Machine
end

section
/-! The sticky errors (60_exceptions.md R201 to R208): for each operation, up to the step, whether it keeps them, raises
one of them for its cause, or clears some. -/

namespace Sys2Proof.Machine

/-! ### The change of the sticky bits -/

/-- From `st` to `st'` every sticky bit is kept, or one of them is raised, for its cause. -/
def KeepsOrRaises (cause : Err → Prop) (st st' : Status) : Prop :=
  errorBit st' = errorBit st ∨ ∃ e, cause e ∧ errorBit st' = errorBit (setError e st)

theorem errorBit_eq {st st' : Status} (hcmd : st.errCmd = st'.errCmd) (hlen : st.errLen = st'.errLen)
    (haddr : st.errAddr = st'.errAddr) (hrtt : st.errRtt = st'.errRtt) : errorBit st = errorBit st' := by
  funext e
  cases e
  · exact hcmd
  · exact hlen
  · exact haddr
  · exact hrtt

theorem KeepsOrRaises.mono {cause cause' : Err → Prop} {st st' : Status} (h : KeepsOrRaises cause st st')
    (himp : ∀ e, cause e → cause' e) : KeepsOrRaises cause' st st' :=
  h.imp_right fun ⟨e, hcause, hset⟩ => ⟨e, himp e hcause, hset⟩

theorem KeepsOrRaises.errorBit_of_set {cause : Err → Prop} {st st' : Status} (h : KeepsOrRaises cause st st') {e : Err}
    (hset : errorBit st e = true) : errorBit st' e = true := by
  obtain hkeep | ⟨e', -, hraise⟩ := h
  · rw [hkeep, hset]
  · rw [hraise, errorBit_setError, hset, Bool.or_true]

/-- The one bit that can be newly set is the one that was raised. -/
theorem KeepsOrRaises.cause_of_set {cause : Err → Prop} {st st' : Status} (h : KeepsOrRaises cause st st') {e : Err}
    (hclear : errorBit st e = false) (hset : errorBit st' e = true) :
    cause e ∧ ∀ e', errorBit st e' = false → errorBit st' e' = true → e = e' := by
  obtain hkeep | ⟨r, hcause, hraise⟩ := h
  · rw [hkeep, hclear] at hset; cases hset
  · have hraised {e' : Err} (hclear' : errorBit st e' = false) (hset' : errorBit st' e' = true) : r = e' := by
      simpa [hraise, hclear'] using hset'
    obtain rfl := hraised hclear hset
    exact ⟨hcause, fun _ => hraised⟩

/-! ### The commands -/

/-- The command feeds the sample to the RTT update, and the sample is invalid (R170, R190, R204). -/
def FeedsInvalidSample (s : State) (i : Instr) : Prop :=
  ¬ValidSampleBits s.sample ∧ (i = .rttupd ∨
    (i = .txcommit ∧ s.ackin.len = 1#2 ∧ s.ackin.byte0 = seqByte s.seq.txSeq ∧ s.seq.retx = false))

theorem rttUpdate_errors (s : State) :
    KeepsOrRaises (fun e => e = .rtt ∧ ¬ValidSampleBits s.sample) s.status (rttUpdate s).status := by
  rw [← sampleValid_iff_validSampleBits]
  cases hv : sampleValid s.sample
  · rw [rttUpdate_of_invalid hv]
    exact .inr ⟨.rtt, ⟨rfl, Bool.false_ne_true⟩, errorBit_eq rfl rfl rfl rfl⟩
  · rw [rttUpdate_of_valid hv]
    exact .inl (errorBit_eq rfl rfl rfl rfl)

/-- TXCOMMIT raises what RttUpdate raises, where it performs it. -/
theorem exec_txcommit_errors {s t : State} (h : exec .txcommit s = .next t) :
    KeepsOrRaises (fun e => e = .rtt ∧ FeedsInvalidSample s .txcommit) s.status t.status := by
  by_cases hm : s.ackin.len = 1#2 ∧ s.ackin.byte0 = seqByte s.seq.txSeq
  case neg =>
    obtain rfl := Host.Outcome.next.inj ((exec_txcommit_of_not_match hm).symm.trans h)
    exact .inl (errorBit_eq rfl rfl rfl rfl)
  case pos =>
    cases hr : s.seq.retx
    · obtain rfl := Host.Outcome.next.inj ((exec_txcommit_of_match_first hm hr).symm.trans h)
      exact (rttUpdate_errors s).mono fun e ⟨he, hv⟩ => ⟨he, hv, .inr ⟨rfl, hm.1, hm.2, hr⟩⟩
    · obtain rfl := Host.Outcome.next.inj ((exec_txcommit_of_match_retransmitted hm hr).symm.trans h)
      exact .inl (errorBit_eq rfl rfl rfl rfl)

/-- A command raises ERR_RTT or nothing. -/
theorem exec_errors {i : Instr} {s t : State} (h : exec i s = .next t) :
    KeepsOrRaises (fun e => e = .rtt ∧ FeedsInvalidSample s i) s.status t.status := by
  cases i
  case txcommit => exact exec_txcommit_errors h
  case rttupd =>
    obtain rfl := Host.Outcome.next.inj ((exec_rttupd s).symm.trans h)
    exact (rttUpdate_errors s).mono fun e ⟨he, hv⟩ => ⟨he, hv, .inl rfl⟩
  all_goals obtain rfl := Host.Outcome.next.inj h; exact .inl (errorBit_eq rfl rfl rfl rfl)

theorem exec_errLen {i : Instr} {s t : State} (h : exec i s = .next t) : t.status.errLen = s.status.errLen := by
  obtain hkeep | ⟨e, ⟨rfl, -⟩, hraise⟩ := exec_errors h
  · exact congrFun hkeep .len
  · exact congrFun hraise .len

/-! ### The transactions -/

/-- The address is misaligned or unmapped (R67, R69). -/
def NamesNothing (s : State) (a : Addr) : Prop := a.extractLsb' 0 2 ≠ 0#2 ∨ UnmappedAddr s a

/-- The registers fill the map below 0x0050 (R61). -/
theorem exists_regAddr {a : Addr} (halign : a.toNat % 4 = 0) (hbelow : a.toNat < 0x0050) : ∃ r, a = regAddr r := by
  have hmap : ∀ n < 0x0050, n % 4 = 0 → ∃ r ∈ allRegs, BitVec.ofNat 16 n = regAddr r := by decide
  obtain ⟨r, -, hr⟩ := hmap a.toNat hbelow halign
  exact ⟨r, by rw [← hr, BitVec.ofNat_toNat, BitVec.setWidth_eq]⟩

/-- The address decoder finds nothing only where the map has nothing. -/
theorem namesNothing_of_target {s : State} {a : Addr} (h : target s a = .misaligned ∨ target s a = .unmapped) :
    NamesNothing s a := by
  by_cases haligned : a.extractLsb' 0 2 = 0#2
  case neg => exact .inl haligned
  refine .inr ?_
  have halign := (aligned_iff a).mp haligned
  by_cases hbelow : a.toNat < 0x0050
  · obtain ⟨r, rfl⟩ := exists_regAddr halign hbelow
    simp at h
  · rw [target_above_registers halign (not_lt.mp hbelow)] at h
    unfold UnmappedAddr
    split_ifs at h
    case pos | pos => simp at h
    all_goals omega

/-- The word has a length field that the register refuses (R202). -/
def OutOfRange (s : State) (r : Reg) (d : Word) : Prop :=
  match r with
  | .txlen => maxPacket s < (d.extractLsb' 0 16).toNat
  | .rxlen => maxPacket s + 3 < (d.extractLsb' 0 16).toNat
  | .ackin => d.extractLsb' 16 2 = 3#2
  | _ => False

theorem writeReg_errors {r : Reg} (hr : r ≠ .status) (s : State) (d : Word) :
    KeepsOrRaises (fun e => e = .len ∧ OutOfRange s r d) s.status (writeReg s r d).status := by
  cases r
  case status => exact absurd rfl hr
  case txlen | rxlen | ackin =>
    simp only [writeReg]
    split
    · next hrange => exact .inr ⟨.len, ⟨rfl, hrange⟩, rfl⟩
    · exact .inl rfl
  all_goals exact .inl rfl

/-- What makes a write of `d` to `a` raise each error (R201 to R204). -/
def WriteCause (s : State) (a : Addr) (d : Word) : Err → Prop
  | .cmd => a = regAddr .cmd ∧ IllegalByFields d
  | .len => ∃ r, a = regAddr r ∧ OutOfRange s r d
  | .addr => NamesNothing s a
  | .rtt => a = regAddr .cmd ∧ ∃ i, decode d = .ok i ∧ FeedsInvalidSample s i

theorem perform_errors {d : Word} {s t : State} (h : perform d s = .next t) :
    KeepsOrRaises (WriteCause s (regAddr .cmd) d) s.status t.status := by
  by_cases hcmd : ∃ i, decode d = .ok i
  · obtain ⟨i, hi⟩ := hcmd
    rw [perform_of_decode hi] at h
    refine (exec_errors h).mono ?_
    rintro e ⟨rfl, hfeeds⟩
    exact ⟨rfl, i, hi, hfeeds⟩
  · have hnone := not_exists.mp hcmd
    obtain rfl := Host.Outcome.next.inj ((perform_of_not_command hnone s).symm.trans h)
    exact .inr ⟨.cmd, ⟨rfl, (decode_ne_ok_iff_illegalByFields d).mp hnone⟩, rfl⟩

/-- A write raises an error for its cause or keeps all four, but for the write to STATUS. -/
theorem hostWrite_errors {a : Addr} {d : Word} {s t : State} (ha : a ≠ regAddr .status)
    (h : hostWrite a d s = .next t) : KeepsOrRaises (WriteCause s a d) s.status t.status := by
  have hnothing (hn : target s a = .misaligned ∨ target s a = .unmapped) :
      KeepsOrRaises (WriteCause s a d) s.status (raise .addr s).status :=
    .inr ⟨.addr, namesNothing_of_target hn, rfl⟩
  rcases hostWrite_cases a d s with ⟨hmis, hw⟩ | ⟨hun, hw⟩ | ⟨rfl, hw⟩ | ⟨r, -, rfl, hw⟩ | ⟨o, -, hw⟩ | ⟨o, -, hw⟩ <;>
    rw [hw] at h
  case inr.inr.inl => exact perform_errors (s := { s with cmdLast := d }) h
  all_goals obtain rfl := Host.Outcome.next.inj h
  · exact hnothing (.inl hmis)
  · exact hnothing (.inr hun)
  · refine (writeReg_errors (fun hr => ha (congrArg regAddr hr)) s d).mono ?_
    rintro e ⟨rfl, hrange⟩
    exact ⟨r, rfl, hrange⟩
  · rw [writeLanes_putTx_frame]; exact .inl rfl
  · rw [writeLanes_putRx_frame]; exact .inl rfl

theorem hostRead_errors (a : Addr) (s : State) :
    KeepsOrRaises (fun e => e = .addr ∧ NamesNothing s a) s.status (hostRead a s).status := by
  rcases hostRead_cases a s with ⟨hn, hread⟩ | ⟨-, v, hread⟩ <;> rw [hread]
  · exact .inr ⟨.addr, ⟨rfl, namesNothing_of_target hn⟩, rfl⟩
  · exact .inl rfl

/-! ### The step -/

/-- What makes the next event raise each error. -/
def StepCause (s : State) (e : Err) : Prop :=
  (∃ a rest, ReadsNext s a rest ∧ e = .addr ∧ NamesNothing s a) ∨
  ∃ a d rest, WritesNext s a d rest ∧ WriteCause s a d e

/-- The sticky bits over a step: kept, one raised for its cause, or some cleared, by reset or by a write to STATUS. -/
theorem step_errors {s t : State} (h : step s = .next t) :
    KeepsOrRaises (StepCause s) s.status t.status ∨
    (AssertsReset s ∧ ErrorFree t) ∨
    ∃ d rest, WritesNext s (regAddr .status) d rest ∧ t.status = clearErrors d s.status := by
  rcases step_cases s with ⟨-, hs⟩ | ⟨rest, hp, hs⟩ | ⟨rest, -, hs⟩ | ⟨e, rest, -, -, -, hs⟩ |
    ⟨a, rest, hp, hr, hs⟩ | ⟨a, d, rest, hp, hr, hs⟩
  case inr.inr.inr.inr.inr =>
    by_cases ha : a = regAddr .status
    · subst ha
      obtain rfl := Host.Outcome.next.inj ((step_of_writesReg (by decide) ⟨hr, hp⟩).symm.trans h)
      exact .inr (.inr ⟨d, rest, ⟨hr, hp⟩, rfl⟩)
    · have hwrite := hostWrite_errors (s := takeEvent rest s) ha (hs.symm.trans h)
      exact .inl (hwrite.mono fun e hcause => .inr ⟨a, d, rest, ⟨hr, hp⟩, hcause⟩)
  all_goals obtain rfl := Host.Outcome.next.inj (hs.symm.trans h)
  case inr.inl => exact .inr (.inl ⟨⟨rest, hp⟩, fun e => by cases e <;> rfl⟩)
  case inr.inr.inr.inr.inl =>
    exact .inl ((hostRead_errors a (takeEvent rest s)).mono fun e hcause => .inl ⟨a, rest, ⟨hr, hp⟩, hcause⟩)
  all_goals exact .inl (.inl rfl)

/-- A bit that a step sets has its cause, and is the only one the step sets: nothing is set where bits are cleared. -/
theorem step_cause_of_set {s t : State} (h : step s = .next t) {e : Err} (hclear : errorBit s.status e = false)
    (hset : errorBit t.status e = true) :
    StepCause s e ∧ ∀ e', errorBit s.status e' = false → errorBit t.status e' = true → e = e' := by
  obtain herr | ⟨-, hfree⟩ | ⟨d, rest, -, hwrite⟩ := step_errors h
  · exact herr.cause_of_set hclear hset
  · rw [hfree e] at hset; cases hset
  · rw [hwrite] at hset
    have hwas := errorBit_clearErrors_le d s.status e hset
    rw [hclear] at hwas; cases hwas

/-! ### Clearing -/

/-- The word of CLRERR clears all four bits (R90). -/
theorem clearErrors_all (st : Status) (e : Err) : errorBit (clearErrors 0x000F0000#32 st) e = false := by
  cases e <;> exact Bool.and_false _

/-- Settles O20: the write to STATUS, CLRERR's word, and the cases of a step in which a bit can be cleared. -/
theorem stickyErrorsClearedOnlyByStatusWrite : Obligations.StickyErrorsClearedOnlyByStatusWrite := by
  refine ⟨fun s d rest hw => step_of_writesReg (r := .status) (by decide) hw, fun s hin hp => ?clrerr,
    fun s t e h hset hclear => ?clears⟩
  case clrerr => exact ⟨_, step_of_writesReg (r := .status) (by decide) ⟨hin, hp⟩, clearErrors_all s.status⟩
  case clears =>
    obtain herr | ⟨hreset, -⟩ | ⟨d, rest, hw, -⟩ := step_errors h
    · rw [herr.errorBit_of_set hset] at hclear; cases hclear
    · exact .inl hreset
    · exact .inr ⟨d, rest, hw⟩

/-! ### Causes -/

/-- Settles O21: the cause of each bit a step sets, read off `StepCause`. -/
theorem stickyErrorsHaveTheirCauses : Obligations.StickyErrorsHaveTheirCauses := by
  intro s t h
  refine ⟨fun e e' hclear hset => (step_cause_of_set h hclear hset).2 e', fun hclear hset => ?cmd,
    fun hclear hset => ?len, fun hclear hset => ?addr, fun hclear hset => ?rtt⟩
  case cmd =>
    obtain ⟨⟨_, _, _, he, _⟩ | ⟨a, d, rest, hw, rfl, hill⟩, -⟩ := step_cause_of_set (e := .cmd) h hclear hset
    · cases he
    · exact ⟨d, rest, hw, hill⟩
  case len =>
    obtain ⟨⟨_, _, _, he, _⟩ | ⟨a, d, rest, hw, r, rfl, hrange⟩, -⟩ := step_cause_of_set (e := .len) h hclear hset
    · cases he
    · refine ⟨regAddr r, d, rest, hw, ?_⟩
      cases r
      case txlen => exact .inl ⟨rfl, hrange⟩
      case rxlen => exact .inr (.inl ⟨rfl, hrange⟩)
      case ackin => exact .inr (.inr ⟨rfl, hrange⟩)
      all_goals exact hrange.elim
  case addr =>
    obtain ⟨⟨a, rest, hread, -, hnothing⟩ | ⟨a, d, rest, hw, hnothing⟩, -⟩ :=
      step_cause_of_set (e := .addr) h hclear hset
    · exact ⟨a, rest, .inl hread, hnothing⟩
    · exact ⟨a, rest, .inr ⟨d, hw⟩, hnothing⟩
  case rtt =>
    obtain ⟨⟨_, _, _, he, _⟩ | ⟨a, d, rest, hw, rfl, i, hi, hinvalid, hfeeds⟩, -⟩ :=
      step_cause_of_set (e := .rtt) h hclear hset
    · cases he
    · have hissues : Issues s i := ⟨d, rest, hw, hi⟩
      obtain rfl | ⟨rfl, hmatch⟩ := hfeeds
      · exact ⟨hinvalid, .inl hissues⟩
      · exact ⟨hinvalid, .inr ⟨hissues, hmatch⟩⟩

/-- Settles O22: the step of a write to each of the three registers is the range check of `writeReg`. -/
theorem lengthWritesAreRangeChecked : Obligations.LengthWritesAreRangeChecked :=
  ⟨fun _ _ _ hw => step_of_writesReg (r := .txlen) (by decide) hw,
    fun _ _ _ hw => step_of_writesReg (r := .rxlen) (by decide) hw,
    fun _ _ _ hw => step_of_writesReg (r := .ackin) (by decide) hw, fun _ _ _ h => exec_errLen h⟩

end Sys2Proof.Machine
end

section
/-! The two sides of the block (R211): each command of a side keeps the other side, and does the same in the part of the
state that its side names as in the whole state. -/

namespace Sys2Proof.Machine

/-! ### The part of the state that a side names -/

/-- The sender's side alone: all that `SenderSideEq` does not compare is at its reset value. -/
def senderPart (s : State) : State :=
  { State.resetWith s.cfg s.resetCount with
    txbuf := s.txbuf, txplen := s.txplen, ackin := s.ackin
    seq := ⟨s.seq.txSeq, false, s.seq.retx⟩
    sample := s.sample, est := s.est, dev := s.dev, tmo := s.tmo, initTmo := s.initTmo
    status.ackMatch := s.status.ackMatch, status.advanced := s.status.advanced
    status.rttUpdated := s.status.rttUpdated, status.errRtt := s.status.errRtt }

/-- The receiver's side alone: all that `ReceiverSideEq` does not compare is at its reset value. -/
def receiverPart (s : State) : State :=
  { State.resetWith s.cfg s.resetCount with
    rxbuf := s.rxbuf, rxflen := s.rxflen, seq := ⟨false, s.seq.rxExp, false⟩, ackout := s.ackout, rxhdr := s.rxhdr
    status.corrupt := s.status.corrupt, status.short := s.status.short, status.empty := s.status.empty
    status.seqMatch := s.status.seqMatch, status.frameOk := s.status.frameOk, status.accept := s.status.accept }

theorem senderSideEq_iff {s t : State} : SenderSideEq s t ↔ senderPart s = senderPart t := by
  simp only [SenderSideEq, senderPart, State.resetWith, State.mk.injEq, Status.mk.injEq, SeqBits.mk.injEq]
  tauto

theorem receiverSideEq_iff {s t : State} : ReceiverSideEq s t ↔ receiverPart s = receiverPart t := by
  simp only [ReceiverSideEq, receiverPart, State.resetWith, State.mk.injEq, Status.mk.injEq, SeqBits.mk.injEq]
  tauto

/-! ### Commands of one side -/

/-- The command keeps the part `other`, and what it does to the part `own` it does as if that part were the whole state. -/
def ActsOn (own other : State → State) (i : Instr) : Prop :=
  ∀ s, ∃ t u, exec i s = .next t ∧ exec i (own s) = .next u ∧ other s = other t ∧ own t = own u

/-- Equal own parts have one and the same result, so a command leaves them equal. -/
theorem ActsOn.own_congr {own other : State → State} {i : Instr} (h : ActsOn own other i) {s s' : State}
    (hown : own s = own s') :
    ∃ t t', exec i s = .next t ∧ exec i s' = .next t' ∧ other s = other t ∧ own t = own t' := by
  obtain ⟨t, u, ht, hu, hother, heq⟩ := h s
  obtain ⟨t', u', ht', hu', -, heq'⟩ := h s'
  obtain rfl : u = u' := Host.Outcome.next.inj (hu.symm.trans (hown ▸ hu'))
  exact ⟨t, t', ht, ht', hother, heq.trans heq'.symm⟩

/-- RttUpdate is a matter of the sender's side. -/
theorem rttUpdate_senderPart (s : State) : rttUpdate (senderPart s) = senderPart (rttUpdate s) := by
  cases hv : sampleValid s.sample
  · rw [rttUpdate_of_invalid hv, rttUpdate_of_invalid (s := senderPart s) hv]; rfl
  · rw [rttUpdate_of_valid hv, rttUpdate_of_valid (s := senderPart s) hv]; rfl

theorem actsOn_rttupd : ActsOn senderPart receiverPart .rttupd := by
  intro s
  refine ⟨_, _, exec_rttupd s, exec_rttupd (senderPart s), ?other, ?own⟩
  case other => rw [rttUpdate_frame]; rfl
  case own => rw [rttUpdate_senderPart]; rfl

/-- By the three answers of TXCOMMIT: the comparison, RETX and the sample are the sender's. -/
theorem actsOn_txcommit : ActsOn senderPart receiverPart .txcommit := by
  intro s
  by_cases hm : s.ackin.len = 1#2 ∧ s.ackin.byte0 = seqByte s.seq.txSeq
  case neg => exact ⟨_, _, exec_txcommit_of_not_match hm, exec_txcommit_of_not_match (s := senderPart s) hm, rfl, rfl⟩
  case pos =>
    cases hr : s.seq.retx
    case true =>
      exact ⟨_, _, exec_txcommit_of_match_retransmitted hm hr,
        exec_txcommit_of_match_retransmitted (s := senderPart s) hm hr, rfl, rfl⟩
    case false =>
      refine ⟨_, _, exec_txcommit_of_match_first hm hr, exec_txcommit_of_match_first (s := senderPart s) hm hr,
        ?other, ?own⟩
      case other => rw [rttUpdate_frame]; rfl
      case own => rw [rttUpdate_senderPart]; rfl

theorem actsOn_of_mem_senderCommands {i : Instr} (hi : i ∈ senderCommands) : ActsOn senderPart receiverPart i := by
  cases i
  case rttupd => exact actsOn_rttupd
  case txcommit => exact actsOn_txcommit
  case nop | verify | ackenc | ackenci | rxflip | seqrst | rxcommit => simp [senderCommands] at hi
  all_goals exact fun s => ⟨_, _, rfl, rfl, rfl, rfl⟩

theorem actsOn_of_mem_receiverCommands {i : Instr} (hi : i ∈ receiverCommands) : ActsOn receiverPart senderPart i := by
  cases i
  case verify | ackenc | ackenci | rxflip | rxcommit => exact fun s => ⟨_, _, rfl, rfl, rfl, rfl⟩
  all_goals simp [receiverCommands] at hi

/-- Settles O57: sides that agree are equal parts of the state. -/
theorem senderAndReceiverSidesAreIndependent : Obligations.SenderAndReceiverSidesAreIndependent := by
  simp only [Obligations.SenderAndReceiverSidesAreIndependent, senderSideEq_iff, receiverSideEq_iff]
  exact ⟨fun i hi s s' hown => (actsOn_of_mem_senderCommands hi).own_congr hown,
    fun i hi s s' hown => (actsOn_of_mem_receiverCommands hi).own_congr hown⟩

end Sys2Proof.Machine
end

section
/-! Reset (70_reset_and_hazards.md R220, R222): the reset state, the reset input, and the commands straight after it. -/

namespace Sys2Proof.Machine

/-! ### The reset state -/

/-- Settles O7: `State.reset` is the reset state for the block's own parameters. -/
theorem resetStateIsLegal : Obligations.ResetStateIsLegal :=
  ⟨legal_resetWith Config.params 0, legal_resetWith⟩

theorem statusWord_reset :
    statusWord ⟨false, false, false, false, false, false, false, false, false, false, false, false, false⟩ =
      0x00000000#32 := by decide

theorem resetRegisters_resetWith (cfg : Config.Params) (n : Nat) : ResetRegisters (State.resetWith cfg n) where
  cmd := rfl
  status := statusWord_reset
  txplen := rfl
  rxflen := rfl
  ackin := rfl
  ackout := rfl
  txSeq := rfl
  rxExp := rfl
  retx := rfl
  rxhdr := rfl
  csum := rfl
  sample := rfl
  est := rfl
  dev := rfl
  tmo := rfl
  initTmo := rfl

theorem resetRegisters_applyReset (s : State) : ResetRegisters (applyReset s) :=
  { resetRegisters_resetWith s.cfg (s.resetCount + 1) with }

/-- SEQRST and RTTRST write what the reset state holds already: INITTMO and TMO are reset to one value. -/
theorem exec_rttrst_seqrst_reset :
    ∃ u, exec .seqrst State.reset = .next u ∧ exec .rttrst u = .next State.reset :=
  ⟨_, exec_seqrst State.reset, rfl⟩

/-! ### The reset input -/

theorem step_of_pending {s : State} {e : HostEvent} {rest : List HostEvent} (h : s.pending = e :: rest) :
    step s = serve e (takeEvent rest s) := by rw [step, serveNext, h]

theorem serve_assertReset (s : State) : serve (.resetInput true) s = .next (applyReset s) := rfl

theorem serve_releaseReset (s : State) : serve (.resetInput false) s = .next { s with resetIn := false } := rfl

/-- A transaction issued while the reset input is asserted has no effect (R220). -/
theorem serve_heldInReset {s : State} (hin : s.resetIn = true) {e : HostEvent} (he : ∀ level, e ≠ .resetInput level) :
    serve e s = .next s := by
  cases e with
  | rd a => rw [serve, if_pos hin]
  | wr a d => rw [serve, if_pos hin]
  | resetInput level => exact absurd rfl (he level)

/-- Settles O10: the registers of the reset state, and what the step does with each change of the reset input and with
a transaction while it is asserted. -/
theorem resetLeavesTheResetState : Obligations.ResetLeavesTheResetState := by
  refine ⟨resetRegisters_resetWith _ _, rfl, exec_rttrst_seqrst_reset, fun s rest hp => ?asserted,
    fun s e rest hin hp he => ?held, fun s rest hp => ?released⟩
  case asserted =>
    exact ⟨applyReset (takeEvent rest s), step_of_pending hp, resetRegisters_applyReset _, rfl, rfl, rfl⟩
  case held =>
    rw [step_of_pending hp, serve_heldInReset (s := takeEvent rest s) hin he]
    rfl
  case released =>
    rw [step_of_pending hp, serve_releaseReset]
    rfl

/-! ### Commands straight after reset -/

theorem txPayload_reset : txPayload State.reset = [] := rfl

theorem rxFrame_reset : rxFrame State.reset = [] := rfl

/-- The checksum of a header alone, with the sequence bit 0 (R222). -/
theorem csum16_emptyFrame : csum16 [0x00#8] = 0xFFFF#16 := by decide

theorem frameChecksum_reset : frameChecksum false State.reset = 0xFFFF#16 := by
  rw [frameChecksum, txPayload_reset]
  exact csum16_emptyFrame

/-- The frame is its header alone: no payload. -/
theorem txFrame_enc_reset : txFrame (encodeFrame false State.reset) = [0x00#8, 0xFF#8, 0xFF#8] := by
  rw [txFrame_encodeFrame, encodeFrame_csum, frameChecksum_reset, txPayload_reset]
  decide

theorem statusWord_verify_reset : statusWord (verifyFrame State.reset).status = 0x00000007#32 := by
  rw [verifyFrame_status, rxFrame_reset]
  decide

/-- Settles O12: TX_SEQ and both lengths are 0, so ENC and VERIFY work on the empty frame. -/
theorem commandsStraightAfterReset : Obligations.CommandsStraightAfterReset :=
  ⟨⟨_, exec_enc State.reset, txFrame_enc_reset, rfl⟩, ⟨_, exec_verify State.reset, statusWord_verify_reset⟩⟩

end Sys2Proof.Machine
end

section
/-! The bytes of the buffers (R62, R221): their free values after reset, and what changes one, up to the step. -/

namespace Sys2Proof.Machine

/-! ### What holds the buffers' bytes -/

/-- The state that the buffers' bytes are read from: what has been written, and the number of resets for the rest. -/
def buffers (s : State) : Memory × Memory × Nat := (s.txbuf, s.rxbuf, s.resetCount)

theorem Buffer.byte_of_buffers_eq {s t : State} (h : buffers t = buffers s) (b : Buffer) (o : Nat) :
    b.byte t o = b.byte s o := by
  simp only [buffers, Prod.mk.injEq] at h
  obtain ⟨htx, hrx, hcount⟩ := h
  cases b
  case tx => rw [Buffer.byte, txByte, htx, hcount]; rfl
  case rx => rw [Buffer.byte, rxByte, hrx, hcount]; rfl

theorem Buffer.byte_ne_of_buffers_eq {s s' t : State} {b : Buffer} {o : Nat} (h : buffers s' = buffers s)
    (hne : b.byte t o ≠ b.byte s o) : b.byte t o ≠ b.byte s' o := by
  rwa [Buffer.byte_of_buffers_eq h]

/-- After reset nothing is written, so each byte is its free value (R221). -/
theorem Buffer.byte_resetWith (b : Buffer) (cfg : Config.Params) (n o : Nat) :
    b.byte (State.resetWith cfg n) o = Config.bufferByte n (b.window + o) := by
  cases b <;> rfl

/-! ### The commands -/

/-- The command writes the header of the frame in TXBUF (R123, R124). -/
def WritesHeader (i : Instr) : Prop := i = .enc ∨ ∃ b, i = .enci b

theorem rttUpdate_buffers (s : State) : buffers (rttUpdate s) = buffers s := by rw [rttUpdate_frame]; rfl

theorem acceptAck_buffers (s : State) : buffers (acceptAck s) = buffers s := by
  cases h : s.seq.retx
  · rw [acceptAck_first h]; exact rttUpdate_buffers s
  · rw [acceptAck_retransmitted h]; rfl

theorem exec_buffers {i : Instr} {s t : State} (h : exec i s = .next t) (hi : ¬ WritesHeader i) :
    buffers t = buffers s := by
  cases i
  case enc | enci => simp [WritesHeader] at hi
  case txcommit =>
    obtain rfl | rfl := exec_txcommit_cases h
    · exact acceptAck_buffers (checkAck s.seq.txSeq s)
    · rfl
  case rttupd => obtain rfl := Host.Outcome.next.inj h; exact rttUpdate_buffers s
  all_goals obtain rfl := Host.Outcome.next.inj h; rfl

/-- The encoder changes no more than the first three bytes of TXBUF. -/
theorem Buffer.byte_encodeFrame_changed {b : Buffer} {bit : Bool} {s : State} {o : Nat}
    (hne : b.byte (encodeFrame bit s) o ≠ b.byte s o) : b = .tx ∧ o < 3 := by
  cases b
  case tx => exact ⟨rfl, not_le.mp fun ho => hne (txByte_encodeFrame_payload bit s ho)⟩
  case rx => exact absurd rfl hne

theorem exec_byte_changed {b : Buffer} {i : Instr} {s t : State} {o : Nat} (h : exec i s = .next t)
    (hne : b.byte t o ≠ b.byte s o) : b = .tx ∧ o < 3 ∧ WritesHeader i := by
  by_cases hi : WritesHeader i
  case neg => exact absurd (Buffer.byte_of_buffers_eq (exec_buffers h hi) b o) hne
  obtain ⟨bit, rfl⟩ : ∃ bit, t = encodeFrame bit s := by
    obtain rfl | ⟨bit, rfl⟩ := hi
    · exact ⟨_, (Host.Outcome.next.inj h).symm⟩
    · exact ⟨_, (Host.Outcome.next.inj h).symm⟩
  obtain ⟨hb, ho⟩ := Buffer.byte_encodeFrame_changed hne
  exact ⟨hb, ho, hi⟩

theorem perform_byte_changed {b : Buffer} {d : Word} {s t : State} {o : Nat} (h : perform d s = .next t)
    (hne : b.byte t o ≠ b.byte s o) : b = .tx ∧ o < 3 ∧ ∃ i, decode d = .ok i ∧ WritesHeader i := by
  unfold perform at h
  split at h
  · next i hd =>
    obtain ⟨hb, ho, hi⟩ := exec_byte_changed h hne
    exact ⟨hb, ho, i, hd, hi⟩
  · obtain rfl := Host.Outcome.next.inj h
    exact absurd (Buffer.byte_of_buffers_eq (s := s) (t := raise .cmd s) rfl b o) hne

/-! ### The transactions -/

theorem writeReg_buffers (s : State) (r : Reg) (d : Word) : buffers (writeReg s r d) = buffers s := by
  cases r
  case txlen | rxlen | ackin => simp only [writeReg]; split <;> rfl
  all_goals rfl

theorem hostRead_buffers (a : Addr) (s : State) : buffers (hostRead a s) = buffers s := by
  rcases hostRead_cases a s with ⟨-, h⟩ | ⟨-, v, h⟩ <;> rw [h] <;> rfl

/-- The write of one byte of a buffer (R10). -/
def Buffer.put : Buffer → State → Nat → Byte → State
  | .tx => putTx
  | .rx => putRx

/-- What the address of a buffer's mapped word names (R64). -/
def Buffer.wordTarget : Buffer → Nat → Target
  | .tx => .txWord
  | .rx => .rxWord

theorem Buffer.byte_writeLanes_same (b : Buffer) (s : State) (size o x : Nat) (d : Word) :
    b.byte (writeLanes b.put size o d s) x =
      if o ≤ x ∧ x < o + 4 ∧ x < size then lane d (x - o) else b.byte s x := by
  cases b
  case tx => exact txByte_writeLanes s size o x d
  case rx => exact rxByte_writeLanes s size o x d

theorem Buffer.byte_writeLanes_other {b b' : Buffer} (hb : b' ≠ b) (s : State) (size o x : Nat) (d : Word) :
    b.byte (writeLanes b'.put size o d s) x = b.byte s x := by
  cases b <;> cases b'
  case tx.tx | rx.rx => exact absurd rfl hb
  case tx.rx => rw [Buffer.put, writeLanes_putRx_frame]; rfl
  case rx.tx => rw [Buffer.put, writeLanes_putTx_frame]; rfl

/-- A word write changes only its own buffer, and there only the lanes below the buffer's end. -/
theorem Buffer.writeLanes_changed {b b' : Buffer} {s : State} {size o x : Nat} {d : Word}
    (hne : b.byte (writeLanes b'.put size o d s) x ≠ b.byte s x) : b' = b ∧ o ≤ x ∧ x < o + 4 ∧ x < size := by
  by_cases hb : b' = b
  case neg => exact absurd (Buffer.byte_writeLanes_other hb s size o x d) hne
  subst hb
  refine ⟨rfl, by_contra fun hlane => hne ?_⟩
  rw [Buffer.byte_writeLanes_same, if_neg hlane]

/-- The address decoder finds a buffer word only at the multiples of 4 of that buffer's window. -/
theorem Buffer.addr_of_wordTarget {b : Buffer} {s : State} {a : Addr} {o : Nat} (h : target s a = b.wordTarget o) :
    a.toNat = b.window + o ∧ o % 4 = 0 := by
  by_cases haligned : a.extractLsb' 0 2 = 0#2
  case neg => rw [target_of_misaligned haligned] at h; cases b <;> cases h
  have halign := (aligned_iff a).mp haligned
  by_cases hbelow : a.toNat < 0x0050
  · obtain ⟨r, rfl⟩ := exists_regAddr halign hbelow
    rw [target_regAddr] at h; cases b <;> cases h
  · rw [target_above_registers halign (not_lt.mp hbelow)] at h
    split_ifs at h <;> cases b <;> injection h
    all_goals simp only [Buffer.window, txWindow, rxWindow]; omega

/-- A write changes a byte of a buffer only by the header of ENC or ENCI, or at the word that holds the byte. -/
theorem hostWrite_byte_changed {b : Buffer} {a : Addr} {d : Word} {s t : State} {o : Nat}
    (h : hostWrite a d s = .next t) (hne : b.byte t o ≠ b.byte s o) :
    (a = regAddr .cmd ∧ b = .tx ∧ o < 3 ∧ ∃ i, decode d = .ok i ∧ WritesHeader i) ∨
    (a.toNat = b.window + o / 4 * 4 ∧ o < bufSize s) := by
  have hwindow {b' : Buffer} {o' : Nat} (ht : target s a = b'.wordTarget o')
      (hw : hostWrite a d s = .next (writeLanes b'.put (bufSize s) o' d s)) :
      a.toNat = b.window + o / 4 * 4 ∧ o < bufSize s := by
    obtain rfl := Host.Outcome.next.inj (hw.symm.trans h)
    obtain ⟨rfl, hlow, hhigh, hsize⟩ := Buffer.writeLanes_changed hne
    obtain ⟨ha, halign⟩ := Buffer.addr_of_wordTarget ht
    exact ⟨by omega, hsize⟩
  have hkept {u : State} (hw : hostWrite a d s = .next u) (hu : buffers u = buffers s) : False := by
    obtain rfl := Host.Outcome.next.inj (hw.symm.trans h)
    exact hne (Buffer.byte_of_buffers_eq hu b o)
  rcases hostWrite_cases a d s with ⟨-, hw⟩ | ⟨-, hw⟩ | ⟨ha, hw⟩ | ⟨r, -, -, hw⟩ | ⟨o', ht, hw⟩ | ⟨o', ht, hw⟩
  · exact (hkept hw rfl).elim
  · exact (hkept hw rfl).elim
  · have hne' : b.byte t o ≠ b.byte { s with cmdLast := d } o := Buffer.byte_ne_of_buffers_eq (by rfl) hne
    exact .inl ⟨ha, perform_byte_changed (hw.symm.trans h) hne'⟩
  · exact (hkept hw (writeReg_buffers s r d)).elim
  · exact .inr (hwindow (b' := .tx) ht hw)
  · exact .inr (hwindow (b' := .rx) ht hw)

/-! ### The step -/

/-- The three ways to change a byte of a buffer: reset, the header of ENC or ENCI, and the write of its word. -/
theorem step_byte_changed {b : Buffer} {s t : State} {o : Nat} (h : step s = .next t)
    (hne : b.byte t o ≠ b.byte s o) :
    AssertsReset s ∨ (b = .tx ∧ o < 3 ∧ ∃ i, Issues s i ∧ WritesHeader i) ∨
    ∃ a d rest, WritesNext s a d rest ∧ a.toNat = b.window + o / 4 * 4 ∧ o < bufSize s := by
  rcases step_cases s with ⟨-, hs⟩ | ⟨rest, hp, -⟩ | ⟨rest, -, hs⟩ | ⟨e, rest, -, -, -, hs⟩ | ⟨a, rest, -, -, hs⟩ |
    ⟨a, d, rest, hp, hr, hs⟩
  case inr.inl => exact .inl ⟨rest, hp⟩
  case inr.inr.inr.inr.inr =>
    have hne' : b.byte t o ≠ b.byte (takeEvent rest s) o := Buffer.byte_ne_of_buffers_eq (by rfl) hne
    refine .inr ((hostWrite_byte_changed (hs.symm.trans h) hne').imp ?_ ?_)
    · rintro ⟨rfl, hb, ho, i, hd, hi⟩
      exact ⟨hb, ho, i, ⟨d, rest, ⟨hr, hp⟩, hd⟩, hi⟩
    · rintro ⟨ha, ho⟩
      exact ⟨a, d, rest, ⟨hr, hp⟩, ha, ho⟩
  all_goals
    obtain rfl := Host.Outcome.next.inj (hs.symm.trans h)
    refine absurd (Buffer.byte_of_buffers_eq ?_ b o) hne
  case inr.inr.inr.inr.inl => exact hostRead_buffers a (takeEvent rest s)
  all_goals rfl

/-- Settles O11: both buffers by `step_byte_changed`; no command writes RXBUF. -/
theorem bufferBytesKeepTheirValue : Obligations.BufferBytesKeepTheirValue := by
  refine ⟨fun cfg n o => ⟨Buffer.byte_resetWith .tx cfg n o, Buffer.byte_resetWith .rx cfg n o⟩,
    fun s t o h hne => ?tx, fun s t o h hne => ?rx⟩
  case tx =>
    obtain hreset | ⟨-, ho, i, hissues, rfl | ⟨bit, rfl⟩⟩ | hword := step_byte_changed (b := .tx) h hne
    · exact .inl hreset
    · exact .inr (.inl ⟨ho, .inl hissues⟩)
    · exact .inr (.inl ⟨ho, .inr ⟨bit, hissues⟩⟩)
    · exact .inr (.inr hword)
  case rx =>
    obtain hreset | ⟨hb, -⟩ | hword := step_byte_changed (b := .rx) h hne
    · exact .inl hreset
    · cases hb
    · exact .inr hword

end Sys2Proof.Machine
end
